-- ==== Sys2Proof/Word.lean ====
section
/-! DEFINITION. The value types of the lane bring-up block: the bits that cross its ports (spec 30_encoding.md R65, R66),
the names of its clock domains, synchronizer instances and controller states (10_state.md R20, R23, R25, R31), its
input and output ports (R38, R39), and the steps of the agents around it (60_exceptions.md R169). -/

namespace Sys2Proof

/-- One raw received word: bits 7:0 data, bit 8 `K`, bit 9 `marker` (R65). -/
abbrev RawWord := BitVec 10

/-- One 9-bit symbol: bits 7:0 data, bit 8 `K` (R66). -/
abbrev Sym := BitVec 9

/-- The four clock domains (R20). -/
inductive Domain where
  | ref
  | rx
  | tx
  | cons
  deriving DecidableEq, Repr, Inhabited

/-- The two symbol slots of a receive or transmit tick, slot 0 first on the wire (R69, R70). -/
inductive Slot where
  | slot0
  | slot1
  deriving DecidableEq, Repr, Inhabited

/-- One value per slot. -/
structure Slots (α : Type) where
  slot0 : α
  slot1 : α
  deriving DecidableEq, Repr, Inhabited

/-- The five synchronizer instances `S_los`, `S_lol`, `S_lss`, `S_done`, `S_con` (R23). -/
inductive SyncInst where
  | los
  | lol
  | lss
  | done
  | con
  deriving DecidableEq, Repr, Inhabited

/-- The detect state `dstate`, one of seven values (R25). -/
inductive DState where
  | start
  | setDetectH
  | setStrobeH
  | setStrobeL
  | waitDoneL
  | waitDoneH
  | done
  deriving DecidableEq, Repr, Inhabited

/-- The alignment state `astate` (R31). -/
inductive AState where
  | search
  | locked
  deriving DecidableEq, Repr, Inhabited

/-- What the transceiver drives (R38, R170). -/
structure XcvrPorts where
  lossOfSignal : Bool
  lossOfLock : Bool
  linkSyncStatus : Bool
  detectDone : Bool
  detectResult : Bool
  rxRaw : Slots RawWord
  deriving DecidableEq, Repr, Inhabited

/-- What the consumer drives (R38, R171). -/
structure ConsumerPorts where
  detEnable : Bool
  alignEnable : Bool
  txSymbol : Slots Sym
  deriving DecidableEq, Repr, Inhabited

/-- What the platform drives: the two domain resets (R21, R38). -/
structure PlatformPorts where
  rstTx : Bool
  rstRx : Bool
  deriving DecidableEq, Repr, Inhabited

/-- Every input port of R38, by the agent that drives it. -/
structure InPorts where
  xcvr : XcvrPorts
  consumer : ConsumerPorts
  platform : PlatformPorts
  deriving DecidableEq, Repr, Inhabited

/-- Every output port of R39. -/
structure OutPorts where
  pcieDetEn : Bool
  pcieCt : Bool
  txSymbolOut : Slots Sym
  detStatus : Bool
  detValid : Bool
  slip : Bool
  invert : Bool
  symbol : Slots Sym
  rxValid : Slots Bool
  alignLocked : Bool
  present : Bool
  locked : Bool
  aligned : Bool
  deriving DecidableEq, Repr, Inhabited

/-- One step of one agent (R169): an active edge of a clock domain, or a change of the ports that the transceiver,
the consumer or the platform drives. -/
inductive Event where
  | tick (d : Domain)
  | transceiver (p : XcvrPorts)
  | consumer (p : ConsumerPorts)
  | platform (p : PlatformPorts)
  deriving DecidableEq, Repr, Inhabited

end Sys2Proof
end

