-- ==== Sys2Proof/Config.lean ====
section
/-! DEFINITION. What is fixed for one instance of the block (spec 00_scope.md R8, 10_state.md R47): the parameters, their
values on this hardware, and the free values (R13's `draw`), which have no body. -/

namespace Sys2Proof

/-- The parameters of R8 that may take another value: those it marks "argument", the two widths that
93_implementation_defined.md U16 makes parameters, and the two literals more that R7 takes as default values, `SENTINEL`
and the informative `TICK_NS`, which no rule reads. The remaining ones (`DET_TIMER_BITS` = 4, `SYM_BITS` = 9, `RAW_BITS` = 10,
`N_SLOTS` = 2, `SYNC_STAGES` = 2) are the widths and shapes of the types of Word.lean and State.lean (assumption 18). -/
structure Params where
  sentinel : RawWord
  startSym : Sym
  commaSym : Sym
  syncMeta : Bool
  detHoldLoad : BitVec 4
  detStrobeLoad : BitVec 4
  alignWinBits : Nat
  alignErrBits : Nat
  tickNs : Nat
  consDomain : Domain
  deriving DecidableEq, Repr

/-- The "value" column of R8. -/
def Config.hardware : Params where
  sentinel := 0x1EE
  startSym := 0x1FB
  commaSym := 0x1BC
  syncMeta := false
  detHoldLoad := 15
  detStrobeLoad := 3
  alignWinBits := 8
  alignErrBits := 16
  tickNs := 8
  consDomain := .cons

/-- The free step an agent takes when no stimulus is pending (R13, R38, R56, R170, R171); applied to the state's draw
counter. Nothing is known of its value (assumption 3). -/
opaque Config.freeEvent : Nat → Event

/-- `draw(Bool)`: the free bit of a late first stage under `SYNC_META` (R84); applied to the draw counter (assumption 4). -/
opaque Config.freeBit : Nat → Bool

/-- What a consumer sees of `det_status` while `det_valid` = 0: any value (R118, U1); applied to the draw counter
(assumption 5). -/
opaque Config.freeStatus : Nat → Bool

/-- The value `draw` of a stimulus line (R78); applied to the draw counter (assumption 6). -/
opaque Config.freeWord : Nat → Nat

end Sys2Proof
end

