-- ==== Sys2Proof/Syntax.lean ====
section
/-! DEFINITION. The operations of the block, one constructor per row of spec/opcode_table.json; the selector words that
pick them (30_encoding.md R71, R73, R74); and the stimulus script (R78). -/

namespace Sys2Proof

/-- The 26 operations. `syncShift` carries the sampled flag (`SYNC_SEL`, R74 (b)) and the instance; the two checker rows
carry the slot, and `svcValid` its raw word, the row's fields `marker`, `K`, `data`. -/
inductive Instr where
  | syncShift (inst : SyncInst) (v : Bool)
  | svcInvalid (slot : Slot)
  | svcValid (slot : Slot) (raw : RawWord)
  | rxdetReset
  | rxdetStartCount
  | rxdetStartExit
  | rxdetSdhCount
  | rxdetSdhExit
  | rxdetSshCount
  | rxdetSshExit
  | rxdetSsl
  | rxdetWdlWait
  | rxdetWdlExit
  | rxdetWdhWait
  | rxdetWdhExit
  | rxdetDoneHold
  | alignReset
  | alignDisable
  | alignLockedHold
  | alignMatch
  | alignMiss
  | alignMissOvf
  | alignCount
  | alignOvf
  | laneStatus
  | laneControl
  deriving DecidableEq, Repr

/-- Whose selector word it is: the table's format, with the synchronizer instance, the slot or (`LANE_SEL` having 0 bits
and two rows) the lane row it belongs to. -/
inductive Format where
  | sync (inst : SyncInst)
  | svc (slot : Slot)
  | rxdet
  | align
  | laneStatus
  | laneControl
  deriving DecidableEq, Repr

/-- A selector word: its format and its bits, read as one number with bit 0 least significant. -/
structure SelWord where
  format : Format
  bits : Nat
  deriving DecidableEq, Repr

/-- Why a selector word is no operation. -/
inductive Reject where
  /-- The number has a bit above the format's width. -/
  | tooWide
  /-- An `RXDET_SEL` word with `R` = 0 and `S` = 7, the unused `dstate` code (R75 (a)). -/
  | reservedDetectCode
  /-- No row of `ALIGN_SEL` matches; R73 says there is no such word. -/
  | noAlignRow
  deriving DecidableEq, Repr

/-- The input ports of R38, as a script names them. -/
inductive Port where
  | rstTx
  | detEnable
  | txSymbol (slot : Slot)
  | detectDone
  | detectResult
  | rstRx
  | alignEnable
  | rxRaw (slot : Slot)
  | lossOfSignal
  | lossOfLock
  | linkSyncStatus
  deriving DecidableEq, Repr

/-- What an `expect` line may name: a register or an output port (R78). -/
inductive Signal where
  | q1 (inst : SyncInst)
  | q2 (inst : SyncInst)
  | dstate
  | dtimer
  | pcieDetEn
  | pcieCt
  | detStatus
  | detValid
  | astate
  | winCnt
  | errTmr
  | slip
  | invert
  | slipReqCount
  | invertToggleCount
  | symbol (slot : Slot)
  | rxValid (slot : Slot)
  | txSymbolOut (slot : Slot)
  | alignLocked
  | present
  | locked
  | aligned
  deriving DecidableEq, Repr

/-- `value` of the script's syntax: a number, or `draw`. -/
inductive Value where
  | num (n : Nat)
  | draw
  deriving DecidableEq, Repr

/-- `assign`: one port, or both raw words at once. -/
inductive Assign where
  | port (p : Port) (v : Value)
  | rxRaw (v0 v1 : Value)
  deriving DecidableEq, Repr

/-- `line` of the script's syntax; a step line's count is 1 where none is written. -/
inductive Line where
  | step (d : Domain) (assigns : List Assign) (count : Nat := 1)
  | expect (checks : List (Signal × Value))
  | comment (text : String)
  deriving DecidableEq, Repr

end Sys2Proof
end

