-- ==== Sys2Proof/WellFormed.lean ====
section
/-! DEFINITION. Which operations, parameters and script lines are well formed. -/

namespace Sys2Proof

/-- `SVC_VALID` is selected by every raw word but the sentinel (R74 (a), R91); every other operation is well formed. -/
def Instr.wf (sentinel : RawWord) : Instr → Bool
  | .svcValid _ raw => raw != sentinel
  | _ => true

/-- R121: a model instance keeps both pattern symbols different from the sentinel's symbol. The two counters have at least
one bit (assumption 18). -/
def Params.wf (p : Params) : Bool :=
  p.startSym != p.sentinel.extractLsb' 0 9 && p.commaSym != p.sentinel.extractLsb' 0 9 &&
    decide (0 < p.alignWinBits) && decide (0 < p.alignErrBits)

/-- The domain whose edges sample a port (R38). -/
def Port.domain : Port → Domain
  | .rstTx | .detEnable | .txSymbol _ | .detectDone | .detectResult => .tx
  | .rstRx | .alignEnable | .rxRaw _ => .rx
  | .lossOfSignal | .lossOfLock | .linkSyncStatus => .cons

/-- A line names ports of its own domain. -/
def Assign.wf (d : Domain) : Assign → Bool
  | .port p _ => p.domain == d
  | .rxRaw _ _ => d == .rx

/-- R78: a step line's domain is `tx`, `rx` or `cons`, and it sets ports of that domain. -/
def Line.wf : Line → Bool
  | .step d as _ => d != .ref && as.all (Assign.wf d)
  | .expect _ => true
  | .comment _ => true

end Sys2Proof
end

