-- ==== Sys2Proof/Decode.lean ====
section
/-! DEFINITION. From selector words to operations and back: the tables of spec/opcode_table.json (30_encoding.md R71, R73,
R74), the decoder, the encoder, and the reading of a bare table word. -/

namespace Sys2Proof

/-- One row of a selector table: a word `w` selects it when `w &&& mask = pattern`. -/
structure Row where
  pattern : BitVec 6
  mask : BitVec 6
  instr : Instr
  deriving DecidableEq, Repr

/-- The rows of format `RXDET_SEL`, bits `R S S S Z D` (R71). -/
def rxdetRows : List Row :=
  [⟨0x20, 0x20, .rxdetReset⟩,
   ⟨0x00, 0x3E, .rxdetStartCount⟩,
   ⟨0x02, 0x3E, .rxdetStartExit⟩,
   ⟨0x04, 0x3E, .rxdetSdhCount⟩,
   ⟨0x06, 0x3E, .rxdetSdhExit⟩,
   ⟨0x08, 0x3E, .rxdetSshCount⟩,
   ⟨0x0A, 0x3E, .rxdetSshExit⟩,
   ⟨0x0C, 0x3C, .rxdetSsl⟩,
   ⟨0x11, 0x3D, .rxdetWdlWait⟩,
   ⟨0x10, 0x3D, .rxdetWdlExit⟩,
   ⟨0x14, 0x3D, .rxdetWdhWait⟩,
   ⟨0x15, 0x3D, .rxdetWdhExit⟩,
   ⟨0x18, 0x3C, .rxdetDoneHold⟩]

/-- The rows of format `ALIGN_SEL`, bits `X N A W M O` (R73). -/
def alignRows : List Row :=
  [⟨0x20, 0x20, .alignReset⟩,
   ⟨0x10, 0x30, .alignDisable⟩,
   ⟨0x08, 0x38, .alignLockedHold⟩,
   ⟨0x06, 0x3E, .alignMatch⟩,
   ⟨0x04, 0x3F, .alignMiss⟩,
   ⟨0x05, 0x3F, .alignMissOvf⟩,
   ⟨0x00, 0x3D, .alignCount⟩,
   ⟨0x01, 0x3D, .alignOvf⟩]

/-- Does the word select the row? (R71) -/
def rowSelects (w : BitVec 6) (r : Row) : Bool :=
  w &&& r.mask == r.pattern

/-- The operation of the row a 6-bit word selects. -/
def lookupRow (rows : List Row) (w : BitVec 6) : Option Instr :=
  (rows.find? (rowSelects w)).map Row.instr

/-- The checker's two rows: the sentinel selects `SVC_INVALID`, every other raw word the fallback row (R74 (a)). -/
def decodeSvc (sentinel : RawWord) (slot : Slot) (raw : RawWord) : Instr :=
  if raw &&& 0x3FF = sentinel then .svcInvalid slot else .svcValid slot raw

/-- How many bits a format's selector word has (R71, R73, R74). -/
def formatWidth : Format → Nat
  | .sync _ => 1
  | .svc _ => 10
  | .rxdet => 6
  | .align => 6
  | .laneStatus => 0
  | .laneControl => 0

/-- The operation a selector word picks, or why it picks none. The sentinel is a parameter (R7, R8), the `match` of row
`SVC_INVALID`; on this hardware it is `0x1EE`. -/
def decode (sentinel : RawWord) (sel : SelWord) : Except Reject Instr :=
  if 2 ^ formatWidth sel.format ≤ sel.bits then .error .tooWide
  else match sel.format with
    | .sync inst => .ok (.syncShift inst (sel.bits == 1))
    | .svc slot => .ok (decodeSvc sentinel slot (BitVec.ofNat 10 sel.bits))
    | .rxdet =>
      match lookupRow rxdetRows (BitVec.ofNat 6 sel.bits) with
      | some i => .ok i
      | none => .error .reservedDetectCode
    | .align =>
      match lookupRow alignRows (BitVec.ofNat 6 sel.bits) with
      | some i => .ok i
      | none => .error .noAlignRow
    | .laneStatus => .ok .laneStatus
    | .laneControl => .ok .laneControl

/-- The selector word of an operation: its row's `match`, every ignored bit 0; for the rows without fixed bits, the bits
its operands are. -/
def encode (sentinel : RawWord) : Instr → SelWord
  | .syncShift inst v => ⟨.sync inst, v.toNat⟩
  | .svcInvalid slot => ⟨.svc slot, sentinel.toNat⟩
  | .svcValid slot raw => ⟨.svc slot, raw.toNat⟩
  | .rxdetReset => ⟨.rxdet, 0x20⟩
  | .rxdetStartCount => ⟨.rxdet, 0x00⟩
  | .rxdetStartExit => ⟨.rxdet, 0x02⟩
  | .rxdetSdhCount => ⟨.rxdet, 0x04⟩
  | .rxdetSdhExit => ⟨.rxdet, 0x06⟩
  | .rxdetSshCount => ⟨.rxdet, 0x08⟩
  | .rxdetSshExit => ⟨.rxdet, 0x0A⟩
  | .rxdetSsl => ⟨.rxdet, 0x0C⟩
  | .rxdetWdlWait => ⟨.rxdet, 0x11⟩
  | .rxdetWdlExit => ⟨.rxdet, 0x10⟩
  | .rxdetWdhWait => ⟨.rxdet, 0x14⟩
  | .rxdetWdhExit => ⟨.rxdet, 0x15⟩
  | .rxdetDoneHold => ⟨.rxdet, 0x18⟩
  | .alignReset => ⟨.align, 0x20⟩
  | .alignDisable => ⟨.align, 0x10⟩
  | .alignLockedHold => ⟨.align, 0x08⟩
  | .alignMatch => ⟨.align, 0x06⟩
  | .alignMiss => ⟨.align, 0x04⟩
  | .alignMissOvf => ⟨.align, 0x05⟩
  | .alignCount => ⟨.align, 0x00⟩
  | .alignOvf => ⟨.align, 0x01⟩
  | .laneStatus => ⟨.laneStatus, 0⟩
  | .laneControl => ⟨.laneControl, 0⟩

/-! ### Words as the host numbers them

A row's bits do not say its format: `RXDET_SEL` and `ALIGN_SEL` are both 6 bits wide. The model names the format in a
third byte, above the bits the table gives (assumption 2); where that byte is 0, the width decides. -/

/-- The format byte of a tagged word. -/
def formatTag : Format → Nat
  | .rxdet => 1
  | .align => 2
  | .svc .slot0 => 3
  | .svc .slot1 => 4
  | .sync .los => 5
  | .sync .lol => 6
  | .sync .lss => 7
  | .sync .done => 8
  | .sync .con => 9
  | .laneStatus => 10
  | .laneControl => 11

/-- The format a format byte names. -/
def formatOfTag : Nat → Option Format
  | 1 => some .rxdet
  | 2 => some .align
  | 3 => some (.svc .slot0)
  | 4 => some (.svc .slot1)
  | 5 => some (.sync .los)
  | 6 => some (.sync .lol)
  | 7 => some (.sync .lss)
  | 8 => some (.sync .done)
  | 9 => some (.sync .con)
  | 10 => some .laneStatus
  | 11 => some .laneControl
  | _ => none

/-- The format of a bare word, by its width in whole bytes: no bits, one byte, two bytes. -/
def formatOfWidth (nbits : Nat) : Option Format :=
  if nbits = 0 then some .laneStatus
  else if nbits ≤ 8 then some .rxdet
  else if nbits ≤ 16 then some (.svc .slot0)
  else none

/-- The selector word a number of `nbits` bits stands for. -/
def tableSelector (nbits w : Nat) : Option SelWord :=
  if 2 ^ nbits ≤ w then none
  else if w / 2 ^ 16 = 0 then (formatOfWidth nbits).map (⟨·, w⟩)
  else (formatOfTag (w / 2 ^ 16)).map (⟨·, w % 2 ^ 16⟩)

/-- A selector word as a number of 24 bits, its format byte on top. -/
def taggedWord (sel : SelWord) : Nat :=
  formatTag sel.format * 2 ^ 16 + sel.bits

/-- The operation the decoder, with this hardware's sentinel, reads from an instruction whose bits are `w`; none where it
refuses. -/
def decodeTableWord (nbits w : Nat) : Option Instr :=
  match tableSelector nbits w with
  | some sel =>
    match decode Config.hardware.sentinel sel with
    | .ok i => some i
    | .error _ => none
  | none => none

end Sys2Proof
end

