-- ==== Sys2Proof/Machine/State.lean ====
section
/-! DEFINITION. The state of the block (spec 10_state.md R23 to R37, R45), of the ports around it (R38, R39) and of the
environment that drives it; the reasons a step may stop; the state at power-on (70_reset_and_hazards.md R182). -/

namespace Sys2Proof.Machine

/-- One synchronizer instance: its two stages (R23) and `prev`, kept only under `SYNC_META` (R84). -/
structure SyncRegs where
  q1 : Bool
  q2 : Bool
  prev : Bool
  deriving DecidableEq, Repr

/-- The five instances (R23). -/
structure Syncs where
  los : SyncRegs
  lol : SyncRegs
  lss : SyncRegs
  done : SyncRegs
  con : SyncRegs
  deriving DecidableEq, Repr

/-- The Receiver-Detection Controller's registers (R25 to R29), domain `tx`. -/
structure DetRegs where
  dstate : DState
  dtimer : BitVec 4
  pcieDetEn : Bool
  pcieCt : Bool
  detStatus : Bool
  deriving DecidableEq, Repr

/-- The Alignment Controller's registers (R31 to R35), domain `rx`. The two counters are unsigned registers of
`ALIGN_WIN_BITS` and `ALIGN_ERR_BITS` bits (R32, R33), widths that are parameters (U16), so they are numbers, counted
modulo their sizes wherever they are written (`advanceWindow`, `advanceErr`); that they stay below is part of the
invariant `SearchCounters` (assumption 18). -/
structure AlignRegs where
  astate : AState
  winCnt : Nat
  errTmr : Nat
  slip : Bool
  invert : Bool
  deriving DecidableEq, Repr

/-- The two ghost counters (R37). -/
structure Ghost where
  slipReqCount : Nat
  invertToggleCount : Nat
  deriving DecidableEq, Repr

/-- The whole state. `params`, `inp`, `out`, `pending` and `draws` are the model's own fields, no registers of the block:
the fixed parameters (R47; assumption 1), the values the input ports present now (assumption 7), the values the
combinational output ports show now (assumption 8), the agents' coming steps, oldest first (R56, R78; assumption 3), and
how many free values have been drawn (assumptions 3 to 6). -/
structure State where
  params : Params
  sync : Syncs
  det : DetRegs
  align : AlignRegs
  ghost : Ghost
  inp : InPorts
  out : OutPorts
  pending : List Event
  draws : Nat
  deriving DecidableEq, Repr

/-- Why the machine may stop. -/
inductive Fault where
  /-- A selector word picked no operation: `RXDET_SEL` with `R` = 0 and `S` = 7 (R75 (a)). Raised by a tick
  (Machine/Tick.lean, `runFormats`). Safe: the machine stops. No state raises it, since `dstate` has seven values. -/
  | reservedSelector
  deriving DecidableEq, Repr

/-- Why the model may have no meaning for an operation. -/
inductive Refusal where
  /-- The operation has no meaning yet. Raised by no arm of this model. Safe: the machine stops. -/
  | notModelled (mnemonic : String)
  deriving DecidableEq, Repr

/-- What a step, or one operation, answers. -/
abbrev Result := Host.Outcome State Fault Refusal

/-- One instance with every bit 0. -/
def SyncRegs.zero : SyncRegs := ⟨false, false, false⟩

/-- Five instances with every bit 0. -/
def Syncs.zero : Syncs := ⟨.zero, .zero, .zero, .zero, .zero⟩

/-- Every input port 0: what a port presents before the first line that sets it (R78). -/
def InPorts.zero : InPorts where
  xcvr := ⟨false, false, false, false, false, ⟨0, 0⟩⟩
  consumer := ⟨false, false, ⟨0, 0⟩⟩
  platform := ⟨false, false⟩

/-- The power-on state for given parameters and given power-on draws: `sync` for every stage, `detStatus` for
`det_status` (R24, R29, R182). The output ports show what the registers and the input ports, all 0, make them show. -/
def State.powerOn (p : Params) (sync : Syncs) (detStatus : Bool) : State where
  params := p
  sync := sync
  det := ⟨.start, p.detHoldLoad, false, false, detStatus⟩
  align := ⟨.search, 0, 0, false, false⟩
  ghost := ⟨0, 0⟩
  inp := InPorts.zero
  out :=
    { pcieDetEn := false, pcieCt := false, txSymbolOut := ⟨0, 0⟩, detStatus := detStatus, detValid := false,
      slip := false, invert := false, symbol := ⟨0, 0⟩, rxValid := ⟨0 != p.sentinel, 0 != p.sentinel⟩, alignLocked := false,
      present := !sync.los.q2, locked := !sync.lol.q2, aligned := sync.lss.q2 }
  pending := []
  draws := 0

/-- The state at power-on with this hardware's parameters (R8) and every draw taken as 0, the power-on state that
95_test_vectors.md Part 3 starts from (assumption 9). -/
def State.reset : State := State.powerOn Config.hardware Syncs.zero false

end Sys2Proof.Machine
end

