-- ==== Sys2Proof/Machine/Ops.lean ====
section
/-! DEFINITION. The named operations over the registers that the operations of Machine/*.lean are written from. -/

namespace Sys2Proof.Machine

/-- Run `f` on the next state; a fault or a refusal stays. -/
def andThen (o : Result) (f : State → Result) : Result :=
  match o with
  | .next s => f s
  | .fault r => .fault r
  | .refused r => .refused r

/-! ### Whole parts of the state -/

def State.setSync (s : State) (v : Syncs) : State := { s with sync := v }
def State.setDet (s : State) (v : DetRegs) : State := { s with det := v }
def State.setAlign (s : State) (v : AlignRegs) : State := { s with align := v }
def State.setGhost (s : State) (v : Ghost) : State := { s with ghost := v }
def State.setInp (s : State) (v : InPorts) : State := { s with inp := v }
def State.setOut (s : State) (v : OutPorts) : State := { s with out := v }
def State.setPending (s : State) (v : List Event) : State := { s with pending := v }
def State.setDraws (s : State) (v : Nat) : State := { s with draws := v }

/-! ### Slots and synchronizer instances -/

/-- The value of one slot. -/
def slotGet {α : Type} (v : Slots α) : Slot → α
  | .slot0 => v.slot0
  | .slot1 => v.slot1

/-- Replace the value of one slot. -/
def slotSet {α : Type} (v : Slots α) (i : Slot) (x : α) : Slots α :=
  match i with
  | .slot0 => { v with slot0 := x }
  | .slot1 => { v with slot1 := x }

/-- The registers of one instance. -/
def syncGet (v : Syncs) : SyncInst → SyncRegs
  | .los => v.los
  | .lol => v.lol
  | .lss => v.lss
  | .done => v.done
  | .con => v.con

/-- Replace the registers of one instance. -/
def syncSet (v : Syncs) (i : SyncInst) (r : SyncRegs) : Syncs :=
  match i with
  | .los => { v with los := r }
  | .lol => { v with lol := r }
  | .lss => { v with lss := r }
  | .done => { v with done := r }
  | .con => { v with con := r }

/-- The domain that clocks an instance (R23); `S_los`, `S_lol`, `S_lss` belong to `CONS_DOMAIN` (R8). -/
def destDomain (p : Params) : SyncInst → Domain
  | .los | .lol | .lss => p.consDomain
  | .done | .con => .tx

/-- The five instances. -/
def allSyncs : List SyncInst := [.done, .con, .los, .lol, .lss]

/-! ### SYNC_SHIFT's stages (R80, R84) -/

/-- Does the first stage see a change it may resolve late? -/
def resolvesLate (p : Params) (r : SyncRegs) (v : Bool) : Bool :=
  p.syncMeta && v != r.prev

/-- One shift of an instance that samples `v`: `q2` takes the old `q1`, `q1` takes `v`. Under `SYNC_META` a changed source
gives `q1` the bit `free` instead, and `prev` keeps the sample (R80, R84). -/
def shiftRegs (p : Params) (r : SyncRegs) (v free : Bool) : SyncRegs where
  q1 := if resolvesLate p r v then free else v
  q2 := r.q1
  prev := if p.syncMeta then v else r.prev

/-- SYNC_SHIFT of one instance, its free bit drawn when it needs one. -/
def shiftSync (inst : SyncInst) (v : Bool) (s : State) : State :=
  let r := syncGet s.sync inst
  { s with
    sync := syncSet s.sync inst (shiftRegs s.params r v (Config.freeBit s.draws))
    draws := if resolvesLate s.params r v then s.draws + 1 else s.draws }

/-! ### The detect registers (R25 to R29) -/

/-- RXDET_RESET's writes (R102); `det_status` keeps its value (R29). -/
def detRestart (p : Params) (r : DetRegs) : DetRegs :=
  { r with dstate := .start, dtimer := p.detHoldLoad, pcieDetEn := false, pcieCt := false }

/-- `dtimer <- dtimer - 1`. -/
def detCountdown (r : DetRegs) : DetRegs := { r with dtimer := r.dtimer - 1 }

/-- `dstate <- d`. -/
def detEnter (d : DState) (r : DetRegs) : DetRegs := { r with dstate := d }

/-- `dtimer <- v`. -/
def detLoad (v : BitVec 4) (r : DetRegs) : DetRegs := { r with dtimer := v }

/-- `pcie_det_en <- 1`. -/
def detRaiseEnable (r : DetRegs) : DetRegs := { r with pcieDetEn := true }

/-- `pcie_ct <- b`. -/
def detStrobe (b : Bool) (r : DetRegs) : DetRegs := { r with pcieCt := b }

/-- `det_status <- b`. -/
def detLatch (b : Bool) (r : DetRegs) : DetRegs := { r with detStatus := b }

/-! ### The alignment registers and the ghost counters (R31 to R37) -/

/-- `astate <- SEARCH`, `win_cnt <- 0`, `err_tmr <- 0`. -/
def restartSearch (s : State) : State :=
  s.setAlign { s.align with astate := .search, winCnt := 0, errTmr := 0 }

/-- `astate <- LOCKED`. -/
def enterLocked (s : State) : State := s.setAlign { s.align with astate := .locked }

/-- `win_cnt <- win_cnt + 1`, modulo 2^`ALIGN_WIN_BITS`, 256 on this hardware (R32). -/
def advanceWindow (s : State) : State :=
  s.setAlign { s.align with winCnt := (s.align.winCnt + 1) % 2 ^ s.params.alignWinBits }

/-- `err_tmr <- err_tmr + 1`, modulo 2^`ALIGN_ERR_BITS`, 65536 on this hardware (R33). -/
def advanceErr (s : State) : State :=
  s.setAlign { s.align with errTmr := (s.align.errTmr + 1) % 2 ^ s.params.alignErrBits }

/-- `err_tmr <- 0`. -/
def clearErr (s : State) : State := s.setAlign { s.align with errTmr := 0 }

/-- `slip <- b`; a change of its level is one request, counted by the ghost (R130, R37). -/
def driveSlip (b : Bool) (s : State) : State :=
  { s with
    align := { s.align with slip := b }
    ghost := { s.ghost with slipReqCount := s.ghost.slipReqCount + (if s.align.slip != b then 1 else 0) } }

/-- `invert <- b`; a change of its level is counted by the ghost (R37). -/
def driveInvert (b : Bool) (s : State) : State :=
  { s with
    align := { s.align with invert := b }
    ghost :=
      { s.ghost with invertToggleCount := s.ghost.invertToggleCount + (if s.align.invert != b then 1 else 0) } }

/-- `slip <- ¬slip`. -/
def toggleSlip (s : State) : State := driveSlip (!s.align.slip) s

/-- `invert <- ¬invert`. -/
def toggleInvert (s : State) : State := driveInvert (!s.align.invert) s

/-! ### The agents' steps (R38, R169) -/

/-- The next step of an agent: the oldest pending one, or a free one (R56). -/
def nextEvent (s : State) : Event :=
  match s.pending with
  | e :: _ => e
  | [] => Config.freeEvent s.draws

/-- The state with that step taken off: the list loses its head, or one free value is used up. -/
def consumeEvent (s : State) : State :=
  match s.pending with
  | _ :: rest => { s with pending := rest }
  | [] => { s with draws := s.draws + 1 }

/-- What an agent's step presents at the input ports; an edge of a clock changes none of them. -/
def present (e : Event) (p : InPorts) : InPorts :=
  match e with
  | .tick _ => p
  | .transceiver v => { p with xcvr := v }
  | .consumer v => { p with consumer := v }
  | .platform v => { p with platform := v }

end Sys2Proof.Machine
end

