-- ==== Sys2Proof/Machine/Operands.lean ====
section
/-! DEFINITION. What the operations read: the sampled inputs, the synchronized flags, the match predicate, the state codes,
and the selector words made of them (30_encoding.md R71 to R74). -/

namespace Sys2Proof.Machine

/-- `in(src)` of an instance (R23). -/
def sourceValue (p : InPorts) : SyncInst → Bool
  | .los => p.xcvr.lossOfSignal
  | .lol => p.xcvr.lossOfLock
  | .lss => p.xcvr.linkSyncStatus
  | .done => p.xcvr.detectDone
  | .con => p.xcvr.detectResult

/-- `sync(src) = s.q2`, all a reader sees of an instance (R81). -/
def syncOut (s : State) (i : SyncInst) : Bool := (syncGet s.sync i).q2

/-- `done_s` (R23). -/
def doneS (s : State) : Bool := syncOut s .done

/-- `con_s` (R23). -/
def conS (s : State) : Bool := syncOut s .con

/-- `det_rst = in(rst_tx) ∨ ¬in(det_enable)` (R100). -/
def detRst (s : State) : Bool := s.inp.platform.rstTx || !s.inp.consumer.detEnable

/-- `symbol = raw[8:0]` (R66). -/
def symbolOf (raw : RawWord) : Sym := raw.extractLsb' 0 9

/-- The match predicate: the framing pattern stands in the two slots, markers ignored (R121). -/
def framingMatch (s : State) : Bool :=
  symbolOf s.inp.xcvr.rxRaw.slot0 == s.params.startSym && symbolOf s.inp.xcvr.rxRaw.slot1 == s.params.commaSym

/-- The 3-bit code of `dstate` (R71). -/
def dstateCode : DState → BitVec 3
  | .start => 0
  | .setDetectH => 1
  | .setStrobeH => 2
  | .setStrobeL => 3
  | .waitDoneL => 4
  | .waitDoneH => 5
  | .done => 6

/-- The state a 3-bit code names; 7 is unused (R71, R75 (a)). -/
def dstateOfCode (c : BitVec 3) : Option DState :=
  if c = 0 then some .start
  else if c = 1 then some .setDetectH
  else if c = 2 then some .setStrobeH
  else if c = 3 then some .setStrobeL
  else if c = 4 then some .waitDoneL
  else if c = 5 then some .waitDoneH
  else if c = 6 then some .done
  else none

/-- The 1-bit code of `astate` (R72). -/
def astateCode : AState → BitVec 1
  | .search => 0
  | .locked => 1

/-- `RXDET_SEL` = `{R, S, Z, D}` (R71). -/
def rxdetSel (s : State) : BitVec 6 :=
  BitVec.ofBool (detRst s) ++ dstateCode s.det.dstate ++ BitVec.ofBool (s.det.dtimer == 0) ++ BitVec.ofBool (doneS s)

/-- The last value of the error timer before it wraps: `0xFFFF` at 16 bits (R73, R76). -/
def errTop (p : Params) : Nat := 2 ^ p.alignErrBits - 1

/-- `ALIGN_SEL` = `{X, N, A, W, M, O}` (R73). -/
def alignSel (s : State) : BitVec 6 :=
  BitVec.ofBool s.inp.platform.rstRx ++ BitVec.ofBool (!s.inp.consumer.alignEnable) ++ astateCode s.align.astate
    ++ BitVec.ofBool (s.align.winCnt == 0) ++ BitVec.ofBool (framingMatch s)
    ++ BitVec.ofBool (s.align.errTmr == errTop s.params)

/-- The selector word a format presents in a state (R71, R73, R74). -/
def selectorOf (f : Format) (s : State) : SelWord :=
  match f with
  | .sync inst => ⟨.sync inst, (sourceValue s.inp inst).toNat⟩
  | .svc slot => ⟨.svc slot, (slotGet s.inp.xcvr.rxRaw slot).toNat⟩
  | .rxdet => ⟨.rxdet, (rxdetSel s).toNat⟩
  | .align => ⟨.align, (alignSel s).toNat⟩
  | .laneStatus => ⟨.laneStatus, 0⟩
  | .laneControl => ⟨.laneControl, 0⟩

/-- `DET_HOLD_LOAD` for a tick period of `tickNs` nanoseconds: ceil(120 ns / T) (R9, R195). -/
def holdLoadFor (tickNs : Nat) : Nat := (120 + tickNs - 1) / tickNs

/-- The model instance for a tick period of `tickNs` nanoseconds (R195): its hold load is recomputed; the strobe and the
alignment counts are stated in ticks and stay. From 8 ns on the load fits the timer's 4 bits, as R8 requires. -/
def instanceFor (tickNs : Nat) : Params :=
  { Config.hardware with detHoldLoad := BitVec.ofNat 4 (holdLoadFor tickNs), tickNs := tickNs }

end Sys2Proof.Machine
end

