-- ==== Sys2Proof/Machine/Fetch.lean ====
section
/-! DEFINITION. Placing a selector word where the next step fetches it. No program counter and no program memory exist
(10_state.md R41, 20_memory.md R60): a component's selector word is made of its state and its inputs, so placing a word
sets those, and puts the agent's step that fetches it first in line (assumption 10). -/

namespace Sys2Proof.Machine

/-- Put a step first in line. -/
def pushEvent (e : Event) (s : State) : State := s.setPending (e :: s.pending)

/-- A value like `v` that is `c` exactly when `b`: `c` itself, or `v`, or where `v` is `c` another value. -/
def equalIff {α : Type} [DecidableEq α] (b : Bool) (c other v : α) : α :=
  if b then c else if v = c then other else v

/-- Set bit `R` of `RXDET_SEL` by the inputs it is made of (R71, R100). -/
def placeDetRst (r : Bool) (p : InPorts) : InPorts :=
  if r then { p with consumer := { p.consumer with detEnable := false } }
  else { p with consumer := { p.consumer with detEnable := true }, platform := { p.platform with rstTx := false } }

/-- The state whose next step is a `tx` edge with `RXDET_SEL` = `w`. -/
def placeRxdet (w : BitVec 6) (s : State) : State :=
  pushEvent (.tick .tx)
    { s with
      inp := placeDetRst (w.getLsbD 5) s.inp
      det :=
        { s.det with
          dstate := (dstateOfCode (w.extractLsb' 2 3)).getD s.det.dstate
          dtimer := equalIff (w.getLsbD 1) 0 1 s.det.dtimer }
      sync := { s.sync with done := { s.sync.done with q2 := w.getLsbD 0 } } }

/-- Raw words that hold the framing pattern exactly when `m` (R121). -/
def placeMatch (m : Bool) (p : Params) : Slots RawWord :=
  if m then ⟨p.startSym.setWidth 10, p.commaSym.setWidth 10⟩
  else ⟨p.startSym.setWidth 10, (p.commaSym + 1).setWidth 10⟩

/-- The state whose next step is an `rx` edge with `ALIGN_SEL` = `w`. -/
def placeAlign (w : BitVec 6) (s : State) : State :=
  pushEvent (.tick .rx)
    { s with
      inp :=
        { xcvr := { s.inp.xcvr with rxRaw := placeMatch (w.getLsbD 1) s.params }
          consumer := { s.inp.consumer with alignEnable := !w.getLsbD 4 }
          platform := { s.inp.platform with rstRx := w.getLsbD 5 } }
      align :=
        { s.align with
          astate := if w.getLsbD 3 then .locked else .search
          winCnt := equalIff (w.getLsbD 2) 0 1 s.align.winCnt
          errTmr := equalIff (w.getLsbD 0) (errTop s.params) (if errTop s.params = 0 then 1 else 0) s.align.errTmr } }

/-- The input ports with `in(src)` of an instance set. -/
def setSource (i : SyncInst) (v : Bool) (p : XcvrPorts) : XcvrPorts :=
  match i with
  | .los => { p with lossOfSignal := v }
  | .lol => { p with lossOfLock := v }
  | .lss => { p with linkSyncStatus := v }
  | .done => { p with detectDone := v }
  | .con => { p with detectResult := v }

/-- The state whose next step is an edge of the instance's destination domain that samples `v`. -/
def placeSync (i : SyncInst) (v : Bool) (s : State) : State :=
  pushEvent (.tick (destDomain s.params i)) (s.setInp { s.inp with xcvr := setSource i v s.inp.xcvr })

/-- The state whose next step is the transceiver's presenting `raw` in a slot. -/
def placeSvc (slot : Slot) (raw : RawWord) (s : State) : State :=
  pushEvent (.transceiver { s.inp.xcvr with rxRaw := slotSet s.inp.xcvr.rxRaw slot raw }) s

/-- The state whose next step runs only what holds at every instant: the platform presents its values again. -/
def placeLane (s : State) : State := pushEvent (.platform s.inp.platform) s

/-- Place a selector word. -/
def placeSelector (sel : SelWord) (s : State) : State :=
  match sel.format with
  | .sync inst => placeSync inst (sel.bits == 1) s
  | .svc slot => placeSvc slot (BitVec.ofNat 10 sel.bits) s
  | .rxdet => placeRxdet (BitVec.ofNat 6 sel.bits) s
  | .align => placeAlign (BitVec.ofNat 6 sel.bits) s
  | .laneStatus => placeLane s
  | .laneControl => placeLane s

/-- Place the word a number stands for; a number that stands for none changes nothing. -/
def placeTableWord (nbits w : Nat) (s : State) : State :=
  match tableSelector nbits w with
  | some sel => placeSelector sel s
  | none => s

end Sys2Proof.Machine
end

