-- ==== Sys2Proof/Machine/Alignment.lean ====
section
/-! DEFINITION. Alignment Controller: the meanings of its eight operations (43_alignment.md R122 to R129). -/

namespace Sys2Proof.Machine

/-- ALIGN_RESET; a 1 that falls is counted by the ghosts (R122, R189). -/
def execAlignReset (s : State) : Result :=
  .next (restartSearch (driveInvert false (driveSlip false s)))

/-- ALIGN_DISABLE: `slip` and `invert` keep their values (R123). -/
def execAlignDisable (s : State) : Result := .next (restartSearch s)

/-- ALIGN_LOCKED_HOLD (R124). -/
def execAlignLockedHold (s : State) : Result := .next (clearErr (advanceWindow s))

/-- ALIGN_MATCH (R125). -/
def execAlignMatch (s : State) : Result := .next (clearErr (advanceWindow (enterLocked s)))

/-- ALIGN_MISS (R126). -/
def execAlignMiss (s : State) : Result := .next (advanceErr (advanceWindow (toggleSlip s)))

/-- ALIGN_MISS_OVF (R127). -/
def execAlignMissOvf (s : State) : Result :=
  .next (advanceErr (advanceWindow (toggleInvert (toggleSlip s))))

/-- ALIGN_COUNT (R128). -/
def execAlignCount (s : State) : Result := .next (advanceErr (advanceWindow s))

/-- ALIGN_OVF (R129). -/
def execAlignOvf (s : State) : Result := .next (advanceErr (advanceWindow (toggleInvert s)))

end Sys2Proof.Machine
end

