-- ==== Sys2Proof/Machine/Flags.lean ====
section
/-! DEFINITION. The status flags and the other output ports, each as its equation (10_state.md R30, R39, R42;
41_symbol_checker.md R90 to R92; 44_lane_interface.md R140 to R151). -/

namespace Sys2Proof.Machine

/-- `present = ¬sync(loss_of_signal)` (R140). -/
def presentFlag (s : State) : Bool := !syncOut s .los

/-- `locked = ¬sync(loss_of_lock)` (R141). -/
def lockedFlag (s : State) : Bool := !syncOut s .lol

/-- `aligned = sync(link_sync_status)` (R142). -/
def alignedFlag (s : State) : Bool := syncOut s .lss

/-- `align_locked = (astate == LOCKED)` (R143). -/
def alignLockedFlag (s : State) : Bool := s.align.astate == .locked

/-- `det_valid = (dstate == DONE)` (R30). -/
def detValidFlag (s : State) : Bool := s.det.dstate == .done

/-- `valid = (raw != SENTINEL)`, over all 10 bits, `0x1EE` on this hardware (R90, R91). -/
def rawValid (p : Params) (raw : RawWord) : Bool := raw != p.sentinel

/-- `rx_valid[0..1]` (R144). -/
def rxValidFlags (s : State) : Slots Bool := 
  ⟨rawValid s.params s.inp.xcvr.rxRaw.slot0, rawValid s.params s.inp.xcvr.rxRaw.slot1⟩

/-- `symbol[0..1]` (R92, R144). -/
def symbolPorts (s : State) : Slots Sym := ⟨symbolOf s.inp.xcvr.rxRaw.slot0, symbolOf s.inp.xcvr.rxRaw.slot1⟩

/-- The status group of the ports, the rest as it was (R152). -/
def withStatusPorts (s : State) (o : OutPorts) : OutPorts :=
  { o with
    present := presentFlag s
    locked := lockedFlag s
    aligned := alignedFlag s
    alignLocked := alignLockedFlag s
    rxValid := rxValidFlags s
    symbol := symbolPorts s
    detValid := detValidFlag s
    detStatus := s.det.detStatus }

/-- The control group of the ports, the rest as it was (R153). -/
def withControlPorts (s : State) (o : OutPorts) : OutPorts :=
  { o with
    slip := s.align.slip
    invert := s.align.invert
    pcieDetEn := s.det.pcieDetEn
    pcieCt := s.det.pcieCt
    txSymbolOut := s.inp.consumer.txSymbol }

/-- What every output port of R39 shows in a state. -/
def portValues (s : State) : OutPorts where
  pcieDetEn := s.det.pcieDetEn
  pcieCt := s.det.pcieCt
  txSymbolOut := s.inp.consumer.txSymbol
  detStatus := s.det.detStatus
  detValid := detValidFlag s
  slip := s.align.slip
  invert := s.align.invert
  symbol := symbolPorts s
  rxValid := rxValidFlags s
  alignLocked := alignLockedFlag s
  present := presentFlag s
  locked := lockedFlag s
  aligned := alignedFlag s

/-- The value one observation of `det_status` gives: the register while `det_valid` = 1, any value before (R118, R185,
U1). DESIGN CHOICE (assumption 5): it is the value of the next observation made in `s`, so evaluating this function twice
on one draw counter is one draw, not two; a reader that observes twice observes by `observeDetStatus`. -/
def observedDetStatus (s : State) : Bool :=
  if detValidFlag s then s.det.detStatus else Config.freeStatus s.draws

/-- A consumer's observation of `det_status`. While `det_valid` = 0 it is a draw (U1), and uses one up: the spec does not
say whether two observations may differ, and here each is a draw of its own (DESIGN CHOICE, assumption 5). -/
def observeDetStatus (s : State) : Bool × State :=
  (observedDetStatus s, if detValidFlag s then s else s.setDraws (s.draws + 1))

end Sys2Proof.Machine
end

