-- ==== Sys2Proof/Machine/Lane.lean ====
section
/-! DEFINITION. Lane Interface: the meanings of LANE_STATUS and LANE_CONTROL (44_lane_interface.md R152, R153). -/

namespace Sys2Proof.Machine

/-- LANE_STATUS: the status group follows the registers and inputs (R152). -/
def execLaneStatus (s : State) : Result := .next (s.setOut (withStatusPorts s s.out))

/-- LANE_CONTROL: the control group follows the registers and inputs (R153). -/
def execLaneControl (s : State) : Result := .next (s.setOut (withControlPorts s s.out))

end Sys2Proof.Machine
end

