-- ==== Sys2Proof/Machine/RxDetect.lean ====
section
/-! DEFINITION. Receiver-Detection Controller: the meanings of its thirteen operations (42_rx_detect.md R102 to R114). -/

namespace Sys2Proof.Machine

/-- RXDET_RESET (R102). -/
def execRxdetReset (s : State) : Result :=
  .next (s.setDet (detRestart s.params s.det))

/-- RXDET_START_COUNT (R103). -/
def execRxdetStartCount (s : State) : Result :=
  .next (s.setDet (detCountdown s.det))

/-- RXDET_START_EXIT (R104). -/
def execRxdetStartExit (s : State) : Result :=
  .next (s.setDet (detLoad s.params.detHoldLoad (detRaiseEnable (detEnter .setDetectH s.det))))

/-- RXDET_SDH_COUNT (R105). -/
def execRxdetSdhCount (s : State) : Result :=
  .next (s.setDet (detCountdown s.det))

/-- RXDET_SDH_EXIT (R106). -/
def execRxdetSdhExit (s : State) : Result :=
  .next (s.setDet (detLoad s.params.detStrobeLoad (detStrobe true (detEnter .setStrobeH s.det))))

/-- RXDET_SSH_COUNT (R107). -/
def execRxdetSshCount (s : State) : Result :=
  .next (s.setDet (detCountdown s.det))

/-- RXDET_SSH_EXIT (R108). -/
def execRxdetSshExit (s : State) : Result :=
  .next (s.setDet (detStrobe false (detEnter .setStrobeL s.det)))

/-- RXDET_SSL (R109). -/
def execRxdetSsl (s : State) : Result :=
  .next (s.setDet (detEnter .waitDoneL s.det))

/-- RXDET_WDL_WAIT: no register changes (R110). -/
def execRxdetWdlWait (s : State) : Result := .next s

/-- RXDET_WDL_EXIT (R111). -/
def execRxdetWdlExit (s : State) : Result :=
  .next (s.setDet (detEnter .waitDoneH s.det))

/-- RXDET_WDH_WAIT: no register changes (R112). -/
def execRxdetWdhWait (s : State) : Result := .next s

/-- RXDET_WDH_EXIT: latch `con_s`, enter DONE (R113). -/
def execRxdetWdhExit (s : State) : Result :=
  .next (s.setDet (detEnter .done (detLatch (conS s) s.det)))

/-- RXDET_DONE_HOLD: no register changes (R114). -/
def execRxdetDoneHold (s : State) : Result := .next s

end Sys2Proof.Machine
end

