-- ==== Sys2Proof/Machine/SymbolChecker.lean ====
section
/-! DEFINITION. Symbol Validity Checker: the meanings of SVC_INVALID and SVC_VALID (41_symbol_checker.md R90 to R94). -/

namespace Sys2Proof.Machine

/-- A slot's outputs: its validity flag and its symbol. -/
def classifySlot (slot : Slot) (valid : Bool) (sym : Sym) (s : State) : State :=
  s.setOut { s.out with rxValid := slotSet s.out.rxValid slot valid, symbol := slotSet s.out.symbol slot sym }

/-- SVC_INVALID: `rx_valid[i] = 0`, `symbol[i]` the sentinel's low 9 bits, `0x1EE` on this hardware (R90, R92). -/
def execSvcInvalid (slot : Slot) (s : State) : Result :=
  .next (classifySlot slot false (symbolOf s.params.sentinel) s)

/-- SVC_VALID: `rx_valid[i] = 1`, `symbol[i]` the raw word's low 9 bits (R91, R92). -/
def execSvcValid (slot : Slot) (raw : RawWord) (s : State) : Result :=
  .next (classifySlot slot true (symbolOf raw) s)

end Sys2Proof.Machine
end

