-- ==== Sys2Proof/Machine/Sync.lean ====
section
/-! DEFINITION. Status Synchronizer: the meaning of SYNC_SHIFT (40_synchronizer.md R80, R84). -/

namespace Sys2Proof.Machine

/-- SYNC_SHIFT of instance `inst`, which samples `v` (R80, R84). -/
def execSyncShift (inst : SyncInst) (v : Bool) (s : State) : Result :=
  .next (shiftSync inst v s)

end Sys2Proof.Machine
end

