-- ==== Sys2Proof/Machine/Dispatch.lean ====
section
/-! DEFINITION. One arm per operation of the table. -/

namespace Sys2Proof.Machine

def exec (i : Instr) (s : State) : Host.Outcome State Fault Refusal :=
  match i with
  | .syncShift inst v => Sys2Proof.Machine.execSyncShift inst v s
  | .svcInvalid slot => Sys2Proof.Machine.execSvcInvalid slot s
  | .svcValid slot raw => Sys2Proof.Machine.execSvcValid slot raw s
  | .rxdetReset => Sys2Proof.Machine.execRxdetReset s
  | .rxdetStartCount => Sys2Proof.Machine.execRxdetStartCount s
  | .rxdetStartExit => Sys2Proof.Machine.execRxdetStartExit s
  | .rxdetSdhCount => Sys2Proof.Machine.execRxdetSdhCount s
  | .rxdetSdhExit => Sys2Proof.Machine.execRxdetSdhExit s
  | .rxdetSshCount => Sys2Proof.Machine.execRxdetSshCount s
  | .rxdetSshExit => Sys2Proof.Machine.execRxdetSshExit s
  | .rxdetSsl => Sys2Proof.Machine.execRxdetSsl s
  | .rxdetWdlWait => Sys2Proof.Machine.execRxdetWdlWait s
  | .rxdetWdlExit => Sys2Proof.Machine.execRxdetWdlExit s
  | .rxdetWdhWait => Sys2Proof.Machine.execRxdetWdhWait s
  | .rxdetWdhExit => Sys2Proof.Machine.execRxdetWdhExit s
  | .rxdetDoneHold => Sys2Proof.Machine.execRxdetDoneHold s
  | .alignReset => Sys2Proof.Machine.execAlignReset s
  | .alignDisable => Sys2Proof.Machine.execAlignDisable s
  | .alignLockedHold => Sys2Proof.Machine.execAlignLockedHold s
  | .alignMatch => Sys2Proof.Machine.execAlignMatch s
  | .alignMiss => Sys2Proof.Machine.execAlignMiss s
  | .alignMissOvf => Sys2Proof.Machine.execAlignMissOvf s
  | .alignCount => Sys2Proof.Machine.execAlignCount s
  | .alignOvf => Sys2Proof.Machine.execAlignOvf s
  | .laneStatus => Sys2Proof.Machine.execLaneStatus s
  | .laneControl => Sys2Proof.Machine.execLaneControl s

end Sys2Proof.Machine
end

