-- ==== Sys2Proof/Machine/Tick.lean ====
section
/-! DEFINITION. One step of one agent: which components act at an edge of a domain (20_memory.md R54, 60_exceptions.md
R169), the fetch of their selector words, and the settling of the combinational outputs. -/

namespace Sys2Proof.Machine

/-- The controller a domain clocks (R20). -/
def controllerFormats : Domain → List Format
  | .tx => [.rxdet]
  | .rx => [.align]
  | .ref => []
  | .cons => []

/-- The components that perform one operation at an edge of a domain: its controller, then every synchronizer instance it
clocks (R54). -/
def edgeFormats (p : Params) (d : Domain) : List Format :=
  controllerFormats d ++ (allSyncs.filter fun i => destDomain p i == d).map Format.sync

/-- The operation a component performs in a state: the one its selector word picks. -/
def fetch (f : Format) (s : State) : Except Reject Instr := decode s.params.sentinel (selectorOf f s)

/-- Perform one operation of each component. Every operation is fetched from `pre`, the state before the edge, and no
operation writes what a later one reads, so the writes take effect together (R11, R54). -/
def runFormats (pre : State) : List Format → State → Result
  | [], s => .next s
  | f :: fs, s =>
    match fetch f pre with
    | .ok i => andThen (exec i s) (runFormats pre fs)
    | .error _ => .fault .reservedSelector

/-- The components that hold no state and act at every instant (R36, R74 (c), R93). -/
def combinational : List Format := [.svc .slot0, .svc .slot1, .laneStatus, .laneControl]

/-- Let the output ports follow the registers and the input ports. -/
def settle (s : State) : Result := runFormats s combinational s

/-- One active edge of a domain (R54). -/
def edge (d : Domain) (s : State) : Result := runFormats s (edgeFormats s.params d) s

/-- One step of an agent, after which the outputs have settled (R169). -/
def react (e : Event) (s : State) : Result :=
  match e with
  | .tick d => andThen (edge d s) settle
  | .transceiver p => settle (s.setInp (present (.transceiver p) s.inp))
  | .consumer p => settle (s.setInp (present (.consumer p) s.inp))
  | .platform p => settle (s.setInp (present (.platform p) s.inp))

/-- The agents' steps of a list, one after another. -/
def runEvents : List Event → State → Result
  | [], s => .next s
  | e :: es, s => andThen (react e s) (runEvents es)

end Sys2Proof.Machine
end

