-- ==== Sys2Proof/Machine/Step.lean ====
section
/-! DEFINITION. One step of the machine: the next step of whichever agent comes next (20_memory.md R56, 60_exceptions.md
R169). -/

namespace Sys2Proof.Machine

/-- Take the oldest pending step of an agent, or a free one where none is pending, and perform it. -/
def step (s : State) : Host.Outcome State Fault Refusal := react (nextEvent s) (consumeEvent s)

/-- The state with the table word `w` of `nbits` bits placed where `step` fetches next (assumption 10). -/
def State.withFetchWord (s : State) (nbits w : Nat) : State := placeTableWord nbits w s

end Sys2Proof.Machine
end

