-- ==== Sys2Proof/Machine/Script.lean ====
section
/-! DEFINITION. The stimulus script (30_encoding.md R77 to R79): packed vectors, the meaning of its lines as steps of the
agents, and its pseudo-operations. -/

namespace Sys2Proof.Machine

/-! ### Packed vectors (R77) -/

/-- `TXIN` = `{rst_tx, det_enable, detect_done, detect_result}`. -/
def txin (p : InPorts) : BitVec 4 :=
  BitVec.ofBool p.platform.rstTx ++ BitVec.ofBool p.consumer.detEnable ++ BitVec.ofBool p.xcvr.detectDone
    ++ BitVec.ofBool p.xcvr.detectResult

/-- `RXIN` = `{rst_rx, align_enable, rx_raw[1], rx_raw[0]}`. -/
def rxin (p : InPorts) : BitVec 22 :=
  BitVec.ofBool p.platform.rstRx ++ BitVec.ofBool p.consumer.alignEnable ++ p.xcvr.rxRaw.slot1 ++ p.xcvr.rxRaw.slot0

/-- `CSIN` = `{loss_of_signal, loss_of_lock, link_sync_status}`. -/
def csin (p : InPorts) : BitVec 3 :=
  BitVec.ofBool p.xcvr.lossOfSignal ++ BitVec.ofBool p.xcvr.lossOfLock ++ BitVec.ofBool p.xcvr.linkSyncStatus

/-- `TXOUT` = `{pcie_det_en, pcie_ct, det_status, det_valid}`. -/
def txout (o : OutPorts) : BitVec 4 :=
  BitVec.ofBool o.pcieDetEn ++ BitVec.ofBool o.pcieCt ++ BitVec.ofBool o.detStatus ++ BitVec.ofBool o.detValid

/-- `RXOUT` = `{slip, invert, align_locked}`. -/
def rxout (o : OutPorts) : BitVec 3 :=
  BitVec.ofBool o.slip ++ BitVec.ofBool o.invert ++ BitVec.ofBool o.alignLocked

/-- `CSOUT` = `{present, locked, aligned}`. -/
def csout (o : OutPorts) : BitVec 3 :=
  BitVec.ofBool o.present ++ BitVec.ofBool o.locked ++ BitVec.ofBool o.aligned

/-- The input ports with the fields of a `TXIN` word. -/
def setTxin (v : BitVec 4) (p : InPorts) : InPorts where
  xcvr := { p.xcvr with detectDone := v.getLsbD 1, detectResult := v.getLsbD 0 }
  consumer := { p.consumer with detEnable := v.getLsbD 2 }
  platform := { p.platform with rstTx := v.getLsbD 3 }

/-- The input ports with the fields of an `RXIN` word. -/
def setRxin (v : BitVec 22) (p : InPorts) : InPorts where
  xcvr := { p.xcvr with rxRaw := ⟨v.extractLsb' 0 10, v.extractLsb' 10 10⟩ }
  consumer := { p.consumer with alignEnable := v.getLsbD 20 }
  platform := { p.platform with rstRx := v.getLsbD 21 }

/-- The input ports with the fields of a `CSIN` word. -/
def setCsin (v : BitVec 3) (p : InPorts) : InPorts :=
  { p with
    xcvr :=
      { p.xcvr with lossOfSignal := v.getLsbD 2, lossOfLock := v.getLsbD 1, linkSyncStatus := v.getLsbD 0 } }

/-! ### Lines (R78) -/

/-- One bit of a script's value. -/
def bitOf (n : Nat) : Bool := n % 2 == 1

/-- A port takes a value, cut to the port's width. -/
def setPort (port : Port) (n : Nat) (p : InPorts) : InPorts :=
  match port with
  | .rstTx => { p with platform := { p.platform with rstTx := bitOf n } }
  | .rstRx => { p with platform := { p.platform with rstRx := bitOf n } }
  | .detEnable => { p with consumer := { p.consumer with detEnable := bitOf n } }
  | .alignEnable => { p with consumer := { p.consumer with alignEnable := bitOf n } }
  | .txSymbol i => { p with consumer := { p.consumer with txSymbol := slotSet p.consumer.txSymbol i (BitVec.ofNat 9 n) } }
  | .detectDone => { p with xcvr := { p.xcvr with detectDone := bitOf n } }
  | .detectResult => { p with xcvr := { p.xcvr with detectResult := bitOf n } }
  | .rxRaw i => { p with xcvr := { p.xcvr with rxRaw := slotSet p.xcvr.rxRaw i (BitVec.ofNat 10 n) } }
  | .lossOfSignal => { p with xcvr := { p.xcvr with lossOfSignal := bitOf n } }
  | .lossOfLock => { p with xcvr := { p.xcvr with lossOfLock := bitOf n } }
  | .linkSyncStatus => { p with xcvr := { p.xcvr with linkSyncStatus := bitOf n } }

/-- The number a value stands for: itself, or a free one. -/
def valueOf (v : Value) (draws : Nat) : Nat :=
  match v with
  | .num n => n
  | .draw => Config.freeWord draws

/-- How many free values a value uses up. -/
def valueDraws : Value → Nat
  | .num _ => 0
  | .draw => 1

/-- The input ports, and the draws used, after one assignment. -/
def assign (a : Assign) (x : InPorts × Nat) : InPorts × Nat :=
  match a with
  | .port p v => (setPort p (valueOf v x.2) x.1, x.2 + valueDraws v)
  | .rxRaw v0 v1 =>
    (setPort (.rxRaw .slot1) (valueOf v1 (x.2 + valueDraws v0)) (setPort (.rxRaw .slot0) (valueOf v0 x.2) x.1),
      x.2 + valueDraws v0 + valueDraws v1)

/-- The agents' steps that make every input port present `p`. -/
def presentAll (p : InPorts) : List Event := [.platform p.platform, .consumer p.consumer, .transceiver p.xcvr]

/-- A step line: the ports are set, then `count` edges of the domain sample them. -/
def lineEvents (d : Domain) (p : InPorts) (count : Nat) : List Event :=
  presentAll p ++ List.replicate count (.tick d)

/-- The value a register or an output holds. -/
def signalValue (x : Signal) (s : State) : Nat :=
  match x with
  | .q1 i => (syncGet s.sync i).q1.toNat
  | .q2 i => (syncGet s.sync i).q2.toNat
  | .dstate => (dstateCode s.det.dstate).toNat
  | .dtimer => s.det.dtimer.toNat
  | .pcieDetEn => s.out.pcieDetEn.toNat
  | .pcieCt => s.out.pcieCt.toNat
  | .detStatus => s.out.detStatus.toNat
  | .detValid => s.out.detValid.toNat
  | .astate => (astateCode s.align.astate).toNat
  | .winCnt => s.align.winCnt
  | .errTmr => s.align.errTmr
  | .slip => s.out.slip.toNat
  | .invert => s.out.invert.toNat
  | .slipReqCount => s.ghost.slipReqCount
  | .invertToggleCount => s.ghost.invertToggleCount
  | .symbol i => (slotGet s.out.symbol i).toNat
  | .rxValid i => (slotGet s.out.rxValid i).toNat
  | .txSymbolOut i => (slotGet s.out.txSymbolOut i).toNat
  | .alignLocked => s.out.alignLocked.toNat
  | .present => s.out.present.toNat
  | .locked => s.out.locked.toNat
  | .aligned => s.out.aligned.toNat

/-- May a signal that holds `n` be expected to hold `v`? A number is the one value stated; `draw` is any value (R13), so it
holds whatever the signal does, and uses up no free value (assumption 23). -/
def valueAllows (v : Value) (n : Nat) : Bool :=
  match v with
  | .num m => n == m
  | .draw => true

/-- Do the values of an `expect` line hold? -/
def expectHolds (checks : List (Signal × Value)) (s : State) : Bool :=
  checks.all fun c => valueAllows c.2 (signalValue c.1 s)

/-- The input ports, and the draws used, after a step line's assignments, in the order written. -/
def assignAll (as : List Assign) (x : InPorts × Nat) : InPorts × Nat := as.foldl (fun x a => assign a x) x

/-- Run one line; none where an expectation fails. -/
def runLine (l : Line) (s : State) : Option State :=
  match l with
  | .step d as count =>
    let x := assignAll as (s.inp, s.draws)
    match runEvents (lineEvents d x.1 count) (s.setDraws x.2) with
    | .next t => some t
    | .fault _ => none
    | .refused _ => none
  | .expect checks => if expectHolds checks s then some s else none
  | .comment _ => some s

/-- Run a script's lines in the order written. -/
def runScript : List Line → State → Option State
  | [], s => some s
  | l :: ls, s => (runLine l s).bind (runScript ls)

/-! ### The encoding of a step line (R77, R78) -/

/-- A step line encoded: its domain, its input vector, its count. -/
structure StepCode where
  domain : Domain
  vector : Nat
  count : Nat
  deriving DecidableEq, Repr

/-- The input vector of a domain: `TXIN`, `RXIN`, `CSIN`; `ref` samples no port. -/
def portVector (d : Domain) (p : InPorts) : Nat :=
  match d with
  | .tx => (txin p).toNat
  | .rx => (rxin p).toNat
  | .cons => (csin p).toNat
  | .ref => 0

/-- The encoding of a step line: the vector holds the domain's ports as the line leaves them, those it does not name as the
lines before it left them. -/
def encodeStep (d : Domain) (as : List Assign) (count : Nat) (x : InPorts × Nat) : StepCode :=
  ⟨d, portVector d (assignAll as x).1, count⟩

/-- The encodings of a script's step lines, each port held from line to line; the other lines have none. A `draw` is encoded
by the value it takes where the edges between use up no free value (no `SYNC_META`). -/
def encodeScript : List Line → InPorts × Nat → List StepCode
  | [], _ => []
  | .step d as count :: ls, x => encodeStep d as count x :: encodeScript ls (assignAll as x)
  | .expect _ :: ls, x => encodeScript ls x
  | .comment _ :: ls, x => encodeScript ls x

/-- A domain's name in a script. -/
def domainChars : Domain → List Char
  | .tx => ['t', 'x']
  | .rx => ['r', 'x']
  | .cons => ['c', 'o', 'n', 's']
  | .ref => ['r', 'e', 'f']

/-- An encoded step line as the script writes it: domain, vector in hex, count, `tx 0x4 *15`. -/
def StepCode.chars (c : StepCode) : List Char :=
  domainChars c.domain ++ [' ', '0', 'x'] ++ (Nat.toDigits 16 c.vector).map Char.toUpper ++ [' ', '*']
    ++ Nat.toDigits 10 c.count

/-- The input ports with the fields of a domain's input vector; every other port keeps its value. -/
def vectorPorts (d : Domain) (v : Nat) (p : InPorts) : InPorts :=
  match d with
  | .tx => setTxin (BitVec.ofNat 4 v) p
  | .rx => setRxin (BitVec.ofNat 22 v) p
  | .cons => setCsin (BitVec.ofNat 3 v) p
  | .ref => p

/-- The agents' steps of an encoded step line. -/
def vectorEvents (c : StepCode) (p : InPorts) : List Event :=
  lineEvents c.domain (vectorPorts c.domain c.vector p) c.count

/-- What the input ports present once the pending steps are done. -/
def pendingPorts (s : State) : InPorts := s.pending.foldl (fun p e => present e p) s.inp

/-- Load an encoded step line behind what is pending. -/
def loadStep (c : StepCode) (s : State) : State :=
  s.setPending (s.pending ++ vectorEvents c (pendingPorts s))

/-! ### Pseudo-operations (R79) -/

/-- `reset_tx`. -/
def resetTx : List Line :=
  [.step .tx [.port .rstTx (.num 1)] 1, .step .tx [.port .rstTx (.num 0)] 0]

/-- `reset_rx`. -/
def resetRx : List Line :=
  [.step .rx [.port .rstRx (.num 1)] 1, .step .rx [.port .rstRx (.num 0)] 0]

/-- `pattern`. -/
def patternWords : Assign := .rxRaw (.num 0x1FB) (.num 0x1BC)

/-- `junk`. -/
def junkWords : Assign := .rxRaw (.num 0x000) (.num 0x000)

/-- `flush_tx`. -/
def flushTx : List Line := [.step .tx [] 2]

/-- `flush_cons`. -/
def flushCons : List Line := [.step .cons [] 2]

end Sys2Proof.Machine
end

