-- ==== Sys2Proof/Safety.lean ====
section
/-! DEFINITION. The terms claims are stated in: the two state machines read as tables over their own registers, the
invariants of the block, the views and event classes of its domains, and infinite runs. -/

namespace Sys2Proof.Machine

/-! ### The state machines as tables -/

/-- The detect state table (R101 to R114): the registers after a `tx` edge with reset condition `rst` and synchronized
flags `done` and `con`. -/
def detNext (p : Params) (rst done con : Bool) (r : DetRegs) : DetRegs :=
  if rst then { dstate := .start, dtimer := p.detHoldLoad, pcieDetEn := false, pcieCt := false, detStatus := r.detStatus }
  else match r.dstate with
    | .start =>
      if r.dtimer = 0 then { r with dstate := .setDetectH, pcieDetEn := true, dtimer := p.detHoldLoad }
      else { r with dtimer := r.dtimer - 1 }
    | .setDetectH =>
      if r.dtimer = 0 then { r with dstate := .setStrobeH, pcieCt := true, dtimer := p.detStrobeLoad }
      else { r with dtimer := r.dtimer - 1 }
    | .setStrobeH =>
      if r.dtimer = 0 then { r with dstate := .setStrobeL, pcieCt := false } else { r with dtimer := r.dtimer - 1 }
    | .setStrobeL => { r with dstate := .waitDoneL }
    | .waitDoneL => if done then r else { r with dstate := .waitDoneH }
    | .waitDoneH => if done then { r with dstate := .done, detStatus := con } else r
    | .done => r

/-- The alignment state table (R120 to R129): the registers after an `rx` edge with `rst_rx` = `rst`, `align_enable` =
`enable` and match predicate `m`; the counters wrap at 2^`ALIGN_WIN_BITS` and 2^`ALIGN_ERR_BITS`. -/
def alignNext (p : Params) (rst enable m : Bool) (r : AlignRegs) : AlignRegs :=
  if rst then { astate := .search, winCnt := 0, errTmr := 0, slip := false, invert := false }
  else if enable = false then { r with astate := .search, winCnt := 0, errTmr := 0 }
  else match r.astate with
    | .locked => { r with winCnt := (r.winCnt + 1) % 2 ^ p.alignWinBits, errTmr := 0 }
    | .search =>
      if r.winCnt = 0 ∧ m = true then
        { r with astate := .locked, winCnt := (r.winCnt + 1) % 2 ^ p.alignWinBits, errTmr := 0 }
      else
        { r with
          winCnt := (r.winCnt + 1) % 2 ^ p.alignWinBits
          errTmr := (r.errTmr + 1) % 2 ^ p.alignErrBits
          slip := if r.winCnt = 0 then !r.slip else r.slip
          invert := if r.errTmr = 2 ^ p.alignErrBits - 1 then !r.invert else r.invert }

/-- The ghost counters follow the level changes between two register values (R37, R130). -/
def ghostNext (before after : AlignRegs) (g : Ghost) : Ghost where
  slipReqCount := if before.slip = after.slip then g.slipReqCount else g.slipReqCount + 1
  invertToggleCount := if before.invert = after.invert then g.invertToggleCount else g.invertToggleCount + 1

/-! ### Invariants -/

/-- The detect registers agree with the detect state (R115). -/
abbrev DetConsistent (s : State) : Prop :=
  (s.det.pcieDetEn = true ↔ s.det.dstate ≠ .start) ∧
  (s.det.pcieCt = true ↔ s.det.dstate = .setStrobeH) ∧
  (s.det.dstate = .setStrobeL ∨ s.det.dstate = .waitDoneL ∨ s.det.dstate = .waitDoneH ∨ s.det.dstate = .done →
    s.det.dtimer = 0)

/-- The two alignment counters fit their widths (R32, R33); they run together while searching (R131: at 8 and 16 bits,
`err_tmr[7:0] == win_cnt`); and the error timer is 0 in LOCKED (R33). -/
abbrev SearchCounters (s : State) : Prop :=
  s.align.winCnt < 2 ^ s.params.alignWinBits ∧ s.align.errTmr < 2 ^ s.params.alignErrBits ∧
  (s.align.astate = .search →
    s.align.errTmr % 2 ^ min s.params.alignWinBits s.params.alignErrBits =
      s.align.winCnt % 2 ^ min s.params.alignWinBits s.params.alignErrBits) ∧
  (s.align.astate = .locked → s.align.errTmr = 0)

/-- The levels of `slip` and `invert` are the parities of their change counts (R37, R130). -/
abbrev GhostParity (s : State) : Prop :=
  s.align.slip = (s.ghost.slipReqCount % 2 == 1) ∧ s.align.invert = (s.ghost.invertToggleCount % 2 == 1)

/-- The output ports show what their equations say (R39). -/
abbrev PortsSettled (s : State) : Prop := s.out = portValues s

/-- All of them, with well-formed parameters (R121). -/
abbrev Inv (s : State) : Prop :=
  DetConsistent s ∧ SearchCounters s ∧ GhostParity s ∧ PortsSettled s ∧ s.params.wf = true

/-! ### The coming step -/

/-- The state in which the coming step fetches its operations: the agent's step taken, its port values presented. -/
def fetchState (s : State) : State := (consumeEvent s).setInp (present (nextEvent s) (consumeEvent s).inp)

/-- The components that perform an operation in an agent's step. -/
def actingFormats (p : Params) : Event → List Format
  | .tick d => edgeFormats p d ++ combinational
  | _ => combinational

/-! ### Classes of agents' steps -/

/-- Is the step an edge of domain `d`? -/
def isTick (d : Domain) (e : Event) : Bool := e == .tick d

/-- Is the step no edge at all? -/
def isDrive : Event → Bool
  | .tick _ => false
  | _ => true

/-- The step leaves the detect sequence enabled: it presents neither `det_enable` = 0 nor `rst_tx` = 1. -/
def keepsDetecting : Event → Bool
  | .tick _ => true
  | .transceiver _ => true
  | .consumer p => p.detEnable
  | .platform p => !p.rstTx

/-- The step leaves the alignment search enabled: it presents neither `align_enable` = 0 nor `rst_rx` = 1. -/
def keepsAligning : Event → Bool
  | .tick _ => true
  | .transceiver _ => true
  | .consumer p => p.alignEnable
  | .platform p => !p.rstRx

/-- Do two raw words hold the framing pattern (R121)? -/
def isPattern (p : Params) (w : Slots RawWord) : Bool :=
  symbolOf w.slot0 == p.startSym && symbolOf w.slot1 == p.commaSym

/-- The step does not present the framing pattern. -/
def presentsNoPattern (p : Params) : Event → Bool
  | .transceiver v => !isPattern p v.rxRaw
  | _ => true

/-- The step presents no `detect_done` but `b`. -/
def keepsDone (b : Bool) : Event → Bool
  | .transceiver v => v.detectDone == b
  | _ => true

/-- `n` receive edges, the raw words `w k` presented before edge `k`. -/
def receive (x : XcvrPorts) (w : Nat → Slots RawWord) (n : Nat) : List Event :=
  (List.range n).flatMap fun k => [.transceiver { x with rxRaw := w k }, .tick .rx]

/-! ### Views -/

/-- What the transmit domain holds: the detect registers and the two instances it clocks. -/
def txView (s : State) : DetRegs × SyncRegs × SyncRegs := (s.det, s.sync.done, s.sync.con)

/-- What the receive domain holds: the alignment registers and their ghosts. -/
def rxView (s : State) : AlignRegs × Ghost := (s.align, s.ghost)

/-! ### Infinite runs (R196) -/

/-- A run: in each state the agents' next step `e n` leads to the next state. -/
def IsRun (e : Nat → Event) (r : Nat → State) : Prop := ∀ n, react (e n) (r n) = .next (r (n + 1))

/-- Domain `d` takes infinitely many edges (R56's weak fairness). -/
def FairTo (d : Domain) (e : Nat → Event) : Prop := ∀ n, ∃ m, n ≤ m ∧ e m = .tick d

end Sys2Proof.Machine
end

