-- ==== Sys2Proof/Certificates/Slice0/Obligations.lean ====
section
/-! DEFINITION. The statements for the provers, from the numbered rules of spec/. -/

open Sys2Proof Sys2Proof.Machine

/-! ### Encodings -/

/-- Whatever the sentinel, every well-formed operation is what its own selector word decodes to; with this hardware's
sentinel it is what its tagged table word decodes to. -/
def Obligations.DecodeInvertsEncode : Prop :=
  ∀ (sentinel : RawWord) (i : Instr), i.wf sentinel = true →
    decode sentinel (encode sentinel i) = .ok i ∧
    (sentinel = Config.hardware.sentinel → decodeTableWord 24 (taggedWord (encode sentinel i)) = some i)

/-- R71: the codes of `dstate`, the bits of `RXDET_SEL`, which row a word selects, that rows are disjoint, and that they
cover every word with `S` ≠ 7 or `R` = 1. -/
def Obligations.DetectSelectorFollowsItsTable : Prop :=
  (dstateCode .start = 0 ∧ dstateCode .setDetectH = 1 ∧ dstateCode .setStrobeH = 2 ∧ dstateCode .setStrobeL = 3 ∧
    dstateCode .waitDoneL = 4 ∧ dstateCode .waitDoneH = 5 ∧ dstateCode .done = 6) ∧
  (∀ s : State,
    (rxdetSel s).getLsbD 5 = (s.inp.platform.rstTx || !s.inp.consumer.detEnable) ∧
    (rxdetSel s).extractLsb' 2 3 = dstateCode s.det.dstate ∧
    (rxdetSel s).getLsbD 1 = decide (s.det.dtimer = 0) ∧
    (rxdetSel s).getLsbD 0 = s.sync.done.q2 ∧
    fetch .rxdet s = decode s.params.sentinel ⟨.rxdet, (rxdetSel s).toNat⟩) ∧
  (∀ (sentinel : RawWord) (w : Nat) (i : Instr),
    decode sentinel ⟨.rxdet, w⟩ = .ok i ↔
      w < 64 ∧ ∃ r ∈ rxdetRows, r.instr = i ∧ BitVec.ofNat 6 w &&& r.mask = r.pattern) ∧
  (∀ (w : BitVec 6) (r₁ r₂ : Row), r₁ ∈ rxdetRows → r₂ ∈ rxdetRows →
    w &&& r₁.mask = r₁.pattern → w &&& r₂.mask = r₂.pattern → r₁ = r₂) ∧
  (∀ w : BitVec 6, w.extractLsb' 2 3 ≠ 7 ∨ w.getLsbD 5 = true → ∃ r ∈ rxdetRows, w &&& r.mask = r.pattern)

/-- R72, R73: the codes of `astate`, the bits of `ALIGN_SEL`, which row a word selects, that rows are disjoint, and that
they cover all 64 words. Bit `O` compares with the error timer's last value, `0xFFFF` at this hardware's 16 bits. -/
def Obligations.AlignSelectorFollowsItsTable : Prop :=
  (astateCode .search = 0 ∧ astateCode .locked = 1) ∧
  (∀ s : State,
    (alignSel s).getLsbD 5 = s.inp.platform.rstRx ∧
    (alignSel s).getLsbD 4 = (!s.inp.consumer.alignEnable) ∧
    (alignSel s).extractLsb' 3 1 = astateCode s.align.astate ∧
    (alignSel s).getLsbD 2 = decide (s.align.winCnt = 0) ∧
    (alignSel s).getLsbD 1 = framingMatch s ∧
    (alignSel s).getLsbD 0 = decide (s.align.errTmr = 2 ^ s.params.alignErrBits - 1) ∧
    fetch .align s = decode s.params.sentinel ⟨.align, (alignSel s).toNat⟩) ∧
  (∀ (sentinel : RawWord) (w : Nat) (i : Instr),
    decode sentinel ⟨.align, w⟩ = .ok i ↔
      w < 64 ∧ ∃ r ∈ alignRows, r.instr = i ∧ BitVec.ofNat 6 w &&& r.mask = r.pattern) ∧
  (∀ (w : BitVec 6) (r₁ r₂ : Row), r₁ ∈ alignRows → r₂ ∈ alignRows →
    w &&& r₁.mask = r₁.pattern → w &&& r₂.mask = r₂.pattern → r₁ = r₂) ∧
  (∀ w : BitVec 6, ∃ r ∈ alignRows, w &&& r.mask = r.pattern) ∧
  2 ^ Config.hardware.alignErrBits - 1 = 0xFFFF

/-- R74 (a), (b): the checker's two rows share out the 1024 raw words, whatever the sentinel, `0x1EE` on this hardware; and
every destination edge shifts. -/
def Obligations.CheckerAndShiftSelectors : Prop :=
  (∀ (sentinel : RawWord) (slot : Slot) (w : Nat), w < 1024 →
    decode sentinel ⟨.svc slot, w⟩ =
      .ok (if w = sentinel.toNat then .svcInvalid slot else .svcValid slot (BitVec.ofNat 10 w))) ∧
  (∀ (sentinel : RawWord) (slot : Slot) (w : Nat), 1024 ≤ w → decode sentinel ⟨.svc slot, w⟩ = .error .tooWide) ∧
  (∀ (sentinel : RawWord) (inst : SyncInst) (v : Bool),
    decode sentinel ⟨.sync inst, v.toNat⟩ = .ok (.syncShift inst v)) ∧
  Config.hardware.sentinel = 0x1EE

/-- R75 (a): a word with `R` = 0 and `S` = 7 is refused by name, and no state presents one. -/
def Obligations.UnusedDetectCodeIsRefused : Prop :=
  (∀ (sentinel : RawWord) (w : Nat), w < 64 →
    (decode sentinel ⟨.rxdet, w⟩ = .error .reservedDetectCode ↔ w / 4 % 8 = 7 ∧ w / 32 = 0)) ∧
  ∀ s : State, decode s.params.sentinel (selectorOf .rxdet s) ≠ .error .reservedDetectCode

/-- Words written out from the spec's own test vectors (95_test_vectors.md Part 2) and rows. -/
def Obligations.VectorWordsDecode : Prop :=
  decode Config.hardware.sentinel ⟨.rxdet, 0b101000⟩ = .ok .rxdetReset ∧
  decode Config.hardware.sentinel ⟨.rxdet, 0b000101⟩ = .ok .rxdetSdhCount ∧
  decode Config.hardware.sentinel ⟨.rxdet, 0b010111⟩ = .ok .rxdetWdhExit ∧
  decode Config.hardware.sentinel ⟨.align, 0b000101⟩ = .ok .alignMissOvf ∧
  decode Config.hardware.sentinel ⟨.align, 0b011000⟩ = .ok .alignDisable ∧
  decode Config.hardware.sentinel ⟨.svc .slot0, 0b0111101110⟩ = .ok (.svcInvalid .slot0) ∧
  decode Config.hardware.sentinel ⟨.svc .slot1, 0b1111101110⟩ = .ok (.svcValid .slot1 0x3EE) ∧
  decode Config.hardware.sentinel ⟨.sync .los, 0b1⟩ = .ok (.syncShift .los true)

/-- R77: the layouts of the input vectors and of the output vectors. -/
def Obligations.PackedVectorLayouts : Prop :=
  (∀ (v : BitVec 4) (p : InPorts),
    txin (setTxin v p) = v ∧ rxin (setTxin v p) = rxin p ∧ csin (setTxin v p) = csin p ∧
    (setTxin v p).consumer.txSymbol = p.consumer.txSymbol) ∧
  (∀ (v : BitVec 22) (p : InPorts),
    rxin (setRxin v p) = v ∧ txin (setRxin v p) = txin p ∧ csin (setRxin v p) = csin p ∧
    (setRxin v p).consumer.txSymbol = p.consumer.txSymbol) ∧
  (∀ (v : BitVec 3) (p : InPorts),
    csin (setCsin v p) = v ∧ txin (setCsin v p) = txin p ∧ rxin (setCsin v p) = rxin p ∧
    (setCsin v p).consumer.txSymbol = p.consumer.txSymbol) ∧
  (∀ p : InPorts,
    (txin p).getLsbD 3 = p.platform.rstTx ∧ (txin p).getLsbD 2 = p.consumer.detEnable ∧
    (txin p).getLsbD 1 = p.xcvr.detectDone ∧ (txin p).getLsbD 0 = p.xcvr.detectResult ∧
    (rxin p).getLsbD 21 = p.platform.rstRx ∧ (rxin p).getLsbD 20 = p.consumer.alignEnable ∧
    (rxin p).extractLsb' 10 10 = p.xcvr.rxRaw.slot1 ∧ (rxin p).extractLsb' 0 10 = p.xcvr.rxRaw.slot0 ∧
    (csin p).getLsbD 2 = p.xcvr.lossOfSignal ∧ (csin p).getLsbD 1 = p.xcvr.lossOfLock ∧
    (csin p).getLsbD 0 = p.xcvr.linkSyncStatus) ∧
  (∀ o : OutPorts,
    (txout o).getLsbD 3 = o.pcieDetEn ∧ (txout o).getLsbD 2 = o.pcieCt ∧ (txout o).getLsbD 1 = o.detStatus ∧
    (txout o).getLsbD 0 = o.detValid ∧
    (rxout o).getLsbD 2 = o.slip ∧ (rxout o).getLsbD 1 = o.invert ∧ (rxout o).getLsbD 0 = o.alignLocked ∧
    (csout o).getLsbD 2 = o.present ∧ (csout o).getLsbD 1 = o.locked ∧ (csout o).getLsbD 0 = o.aligned)

/-! ### What a step runs -/

/-- A step performs the operations its selector words decode to: an edge of a controller's domain performs the
controller's operation on the state before the edge, then the shifts of the instances that domain clocks (R11, R54; their
order is the model's, log entry 11), and the outputs settle. That every step ends with the two checker rows, LANE_STATUS
and LANE_CONTROL, fetched from the state it left, is log entry 8 (DEDUCED from R74 (c), R93, R152 and R153). -/
def Obligations.StepRunsFetchedOperations : Prop :=
  (∀ (s : State) (i : Instr), nextEvent s = .tick .tx → fetch .rxdet (consumeEvent s) = .ok i →
    step s = andThen (exec i (consumeEvent s)) fun t =>
      andThen (runFormats (consumeEvent s)
        ((allSyncs.filter fun j => destDomain s.params j == .tx).map Format.sync) t) settle) ∧
  (∀ (s : State) (i : Instr), nextEvent s = .tick .rx → fetch .align (consumeEvent s) = .ok i →
    step s = andThen (exec i (consumeEvent s)) fun t =>
      andThen (runFormats (consumeEvent s)
        ((allSyncs.filter fun j => destDomain s.params j == .rx).map Format.sync) t) settle) ∧
  (∀ (s : State) (d : Domain), nextEvent s = .tick d → d = .ref ∨ d = .cons →
    step s = andThen (runFormats (consumeEvent s)
      ((allSyncs.filter fun j => destDomain s.params j == d).map Format.sync) (consumeEvent s)) settle) ∧
  (∀ s : State, isDrive (nextEvent s) = true → step s = settle (fetchState s)) ∧
  (∀ (pre s : State) (f : Format) (fs : List Format) (i : Instr),
    decode pre.params.sentinel (selectorOf f pre) = .ok i →
    runFormats pre (f :: fs) s = andThen (exec i s) (runFormats pre fs)) ∧
  (∀ s : State, runFormats s [] s = .next s ∧
    settle s = runFormats s [.svc .slot0, .svc .slot1, .laneStatus, .laneControl] s)

/-- A placed word is what the coming step fetches: its component acts in that step, and its selector word there decodes to
the operation the placed word stands for; with this hardware's sentinel that is what the table word decodes to. -/
def Obligations.PlacedWordIsFetched : Prop :=
  ∀ (s : State) (nbits w : Nat) (sel : SelWord) (i : Instr),
    tableSelector nbits w = some sel → decode s.params.sentinel sel = .ok i →
    (s.params.sentinel = Config.hardware.sentinel → decodeTableWord nbits w = some i) ∧
    fetch sel.format (fetchState (s.withFetchWord nbits w)) = .ok i ∧
    sel.format ∈ actingFormats s.params (nextEvent (s.withFetchWord nbits w))

/-- R160: no operation and no step stops the machine. -/
def Obligations.NothingEverStops : Prop :=
  (∀ (i : Instr) (s : State), ∃ t, exec i s = .next t) ∧ ∀ s : State, ∃ t, step s = .next t

/-- R56, R78: steps that are pending happen one after another in the order listed. -/
def Obligations.PendingStepsRunInOrder : Prop :=
  ∀ (es rest : List Event) (s : State), s.pending = es ++ rest →
    Host.Core.run Sys2Proof.core es.length s = runEvents es { s with pending := rest }

/-! ### The operations -/

/-- R80, R84: what SYNC_SHIFT samples, when it is performed, and what it writes. Under `SYNC_META` a changed source leaves
the first stage free. -/
def Obligations.SyncShiftOperation : Prop :=
  (∀ (s : State) (inst : SyncInst), fetch (.sync inst) s = .ok (.syncShift inst (sourceValue s.inp inst))) ∧
  ∀ (s : State) (inst : SyncInst) (v : Bool), ∃ t, exec (.syncShift inst v) s = .next t ∧
    (syncGet t.sync inst).q2 = (syncGet s.sync inst).q1 ∧
    (s.params.syncMeta = false ∨ (syncGet s.sync inst).prev = v → (syncGet t.sync inst).q1 = v) ∧
    (syncGet t.sync inst).prev = (if s.params.syncMeta then v else (syncGet s.sync inst).prev) ∧
    (∀ other, other ≠ inst → syncGet t.sync other = syncGet s.sync other) ∧
    { t with sync := s.sync, draws := s.draws } = s

/-- R90, R91, R92: which row classifies a slot, and what each writes; the sentinel of this hardware is `0x1EE`. -/
def Obligations.CheckerOperations : Prop :=
  (∀ (s : State) (slot : Slot),
    fetch (.svc slot) s =
      .ok (if slotGet s.inp.xcvr.rxRaw slot = s.params.sentinel then .svcInvalid slot
        else .svcValid slot (slotGet s.inp.xcvr.rxRaw slot))) ∧
  (∀ (s : State) (slot : Slot), ∃ t, exec (.svcInvalid slot) s = .next t ∧
    slotGet t.out.rxValid slot = false ∧ slotGet t.out.symbol slot = s.params.sentinel.extractLsb' 0 9 ∧
    (∀ other, other ≠ slot →
      slotGet t.out.rxValid other = slotGet s.out.rxValid other ∧ slotGet t.out.symbol other = slotGet s.out.symbol other) ∧
    { t with out := { t.out with rxValid := s.out.rxValid, symbol := s.out.symbol } } = s) ∧
  (∀ (s : State) (slot : Slot) (raw : RawWord), ∃ t, exec (.svcValid slot raw) s = .next t ∧
    slotGet t.out.rxValid slot = true ∧ slotGet t.out.symbol slot = raw.extractLsb' 0 9 ∧
    (∀ other, other ≠ slot →
      slotGet t.out.rxValid other = slotGet s.out.rxValid other ∧ slotGet t.out.symbol other = slotGet s.out.symbol other) ∧
    { t with out := { t.out with rxValid := s.out.rxValid, symbol := s.out.symbol } } = s) ∧
  Config.hardware.sentinel = 0x1EE

/-- R102: RXDET_RESET is performed exactly when the reset condition holds, whatever the state; what it writes, and what the
flags `det_valid` and `det_status` then show. -/
def Obligations.DetectResetOperation : Prop :=
  (∀ s : State, fetch .rxdet s = .ok .rxdetReset ↔
    s.inp.platform.rstTx = true ∨ s.inp.consumer.detEnable = false) ∧
  ∀ s : State, ∃ t, exec .rxdetReset s = .next t ∧
    t = { s with det :=
      { s.det with dstate := .start, dtimer := s.params.detHoldLoad, pcieDetEn := false, pcieCt := false } } ∧
    (portValues t).detValid = false ∧ (portValues t).detStatus = s.det.detStatus

/-- R103, R105, R107: the three countdown operations. -/
def Obligations.DetectCountdownOperations : Prop :=
  (∀ s : State,
    (fetch .rxdet s = .ok .rxdetStartCount ↔ detRst s = false ∧ s.det.dstate = .start ∧ s.det.dtimer ≠ 0) ∧
    (fetch .rxdet s = .ok .rxdetSdhCount ↔ detRst s = false ∧ s.det.dstate = .setDetectH ∧ s.det.dtimer ≠ 0) ∧
    (fetch .rxdet s = .ok .rxdetSshCount ↔ detRst s = false ∧ s.det.dstate = .setStrobeH ∧ s.det.dtimer ≠ 0)) ∧
  ∀ s : State,
    exec .rxdetStartCount s = .next { s with det := { s.det with dtimer := s.det.dtimer - 1 } } ∧
    exec .rxdetSdhCount s = .next { s with det := { s.det with dtimer := s.det.dtimer - 1 } } ∧
    exec .rxdetSshCount s = .next { s with det := { s.det with dtimer := s.det.dtimer - 1 } }

/-- R104, R106, R108: the three operations that end a countdown; what each writes, and the port that rises or falls with
it. -/
def Obligations.DetectCountdownExits : Prop :=
  (∀ s : State,
    (fetch .rxdet s = .ok .rxdetStartExit ↔ detRst s = false ∧ s.det.dstate = .start ∧ s.det.dtimer = 0) ∧
    (fetch .rxdet s = .ok .rxdetSdhExit ↔ detRst s = false ∧ s.det.dstate = .setDetectH ∧ s.det.dtimer = 0) ∧
    (fetch .rxdet s = .ok .rxdetSshExit ↔ detRst s = false ∧ s.det.dstate = .setStrobeH ∧ s.det.dtimer = 0)) ∧
  ∀ s : State, ∃ t₁ t₂ t₃,
    exec .rxdetStartExit s = .next t₁ ∧
    t₁ = { s with det := { s.det with dstate := .setDetectH, pcieDetEn := true, dtimer := s.params.detHoldLoad } } ∧
    (portValues t₁).pcieDetEn = true ∧
    exec .rxdetSdhExit s = .next t₂ ∧
    t₂ = { s with det := { s.det with dstate := .setStrobeH, pcieCt := true, dtimer := s.params.detStrobeLoad } } ∧
    (portValues t₂).pcieCt = true ∧
    exec .rxdetSshExit s = .next t₃ ∧
    t₃ = { s with det := { s.det with dstate := .setStrobeL, pcieCt := false } } ∧ (portValues t₃).pcieCt = false

/-- R109, R111: the two operations that only move the detect state on. -/
def Obligations.DetectStateAdvances : Prop :=
  (∀ s : State,
    (fetch .rxdet s = .ok .rxdetSsl ↔ detRst s = false ∧ s.det.dstate = .setStrobeL) ∧
    (fetch .rxdet s = .ok .rxdetWdlExit ↔ detRst s = false ∧ s.det.dstate = .waitDoneL ∧ s.sync.done.q2 = false)) ∧
  ∀ s : State,
    exec .rxdetSsl s = .next { s with det := { s.det with dstate := .waitDoneL } } ∧
    exec .rxdetWdlExit s = .next { s with det := { s.det with dstate := .waitDoneH } }

/-- R110, R112, R114: the three operations that hold the state. -/
def Obligations.DetectHoldOperations : Prop :=
  (∀ s : State,
    (fetch .rxdet s = .ok .rxdetWdlWait ↔ detRst s = false ∧ s.det.dstate = .waitDoneL ∧ s.sync.done.q2 = true) ∧
    (fetch .rxdet s = .ok .rxdetWdhWait ↔ detRst s = false ∧ s.det.dstate = .waitDoneH ∧ s.sync.done.q2 = false) ∧
    (fetch .rxdet s = .ok .rxdetDoneHold ↔ detRst s = false ∧ s.det.dstate = .done)) ∧
  ∀ s : State,
    exec .rxdetWdlWait s = .next s ∧ exec .rxdetWdhWait s = .next s ∧ exec .rxdetDoneHold s = .next s

/-- R113: the operation that latches the result and enters DONE; `det_valid` and `det_status` then show it. -/
def Obligations.DetectLatchOperation : Prop :=
  (∀ s : State, fetch .rxdet s = .ok .rxdetWdhExit ↔
    detRst s = false ∧ s.det.dstate = .waitDoneH ∧ s.sync.done.q2 = true) ∧
  ∀ s : State, ∃ t, exec .rxdetWdhExit s = .next t ∧
    t = { s with det := { s.det with dstate := .done, detStatus := s.sync.con.q2 } } ∧
    (portValues t).detValid = true ∧ (portValues t).detStatus = s.sync.con.q2

/-- R122, R189 (decisions D19, D26): ALIGN_RESET, which counts a `slip` or an `invert` that falls. -/
def Obligations.AlignResetOperation : Prop :=
  (∀ s : State, fetch .align s = .ok .alignReset ↔ s.inp.platform.rstRx = true) ∧
  ∀ s : State, ∃ t, exec .alignReset s = .next t ∧
    t = { s with
      align := { astate := .search, winCnt := 0, errTmr := 0, slip := false, invert := false }
      ghost :=
        { slipReqCount := if s.align.slip then s.ghost.slipReqCount + 1 else s.ghost.slipReqCount
          invertToggleCount :=
            if s.align.invert then s.ghost.invertToggleCount + 1 else s.ghost.invertToggleCount } } ∧
    (portValues t).alignLocked = false

/-- R123 (decision D19): ALIGN_DISABLE, which leaves `slip`, `invert` and the ghosts as they were. -/
def Obligations.AlignDisableOperation : Prop :=
  (∀ s : State, fetch .align s = .ok .alignDisable ↔
    s.inp.platform.rstRx = false ∧ s.inp.consumer.alignEnable = false) ∧
  ∀ s : State, ∃ t, exec .alignDisable s = .next t ∧
    t = { s with align := { s.align with astate := .search, winCnt := 0, errTmr := 0 } } ∧
    (portValues t).alignLocked = false

/-- R128, and with the decisions D17, D18 and D20 R121, R124, R125: the operations that make no request, and when they
are performed. The counters' widths are parameters (U16), 8 and 16 bits on this hardware. -/
def Obligations.AlignOperationsWithoutRequest : Prop :=
  (∀ s : State, s.inp.platform.rstRx = false → s.inp.consumer.alignEnable = true →
    (framingMatch s = true ↔
      s.inp.xcvr.rxRaw.slot0.extractLsb' 0 9 = s.params.startSym ∧
      s.inp.xcvr.rxRaw.slot1.extractLsb' 0 9 = s.params.commaSym) ∧
    (fetch .align s = .ok .alignLockedHold ↔ s.align.astate = .locked) ∧
    (fetch .align s = .ok .alignMatch ↔
      s.align.astate = .search ∧ s.align.winCnt = 0 ∧ framingMatch s = true) ∧
    (fetch .align s = .ok .alignCount ↔
      s.align.astate = .search ∧ s.align.winCnt ≠ 0 ∧ s.align.errTmr ≠ 2 ^ s.params.alignErrBits - 1)) ∧
  (∀ s : State, ∃ t,
    exec .alignLockedHold s = .next
      { s with align := { s.align with winCnt := (s.align.winCnt + 1) % 2 ^ s.params.alignWinBits, errTmr := 0 } } ∧
    exec .alignMatch s = .next t ∧
    t =
      { s with
        align :=
          { s.align with
            astate := .locked, winCnt := (s.align.winCnt + 1) % 2 ^ s.params.alignWinBits, errTmr := 0 } } ∧
    (portValues t).alignLocked = true ∧
    exec .alignCount s = .next
      { s with
        align :=
          { s.align with
            winCnt := (s.align.winCnt + 1) % 2 ^ s.params.alignWinBits
            errTmr := (s.align.errTmr + 1) % 2 ^ s.params.alignErrBits } }) ∧
  Config.hardware.alignWinBits = 8 ∧ Config.hardware.alignErrBits = 16

/-- R126, R127, and with decision D16 R129: the operations that request a slip or an inversion, when they are performed,
and the level the port then shows. The counters' widths are parameters (U16), 8 and 16 bits on this hardware. -/
def Obligations.AlignRequestOperations : Prop :=
  (∀ s : State, s.inp.platform.rstRx = false → s.inp.consumer.alignEnable = true →
    (fetch .align s = .ok .alignMiss ↔
      s.align.astate = .search ∧ s.align.winCnt = 0 ∧ framingMatch s = false ∧ s.align.errTmr ≠ 2 ^ s.params.alignErrBits - 1) ∧
    (fetch .align s = .ok .alignMissOvf ↔
      s.align.astate = .search ∧ s.align.winCnt = 0 ∧ framingMatch s = false ∧ s.align.errTmr = 2 ^ s.params.alignErrBits - 1) ∧
    (fetch .align s = .ok .alignOvf ↔
      s.align.astate = .search ∧ s.align.winCnt ≠ 0 ∧ s.align.errTmr = 2 ^ s.params.alignErrBits - 1)) ∧
  (∀ s : State, ∃ t₁ t₂ t₃,
    exec .alignMiss s = .next t₁ ∧
    t₁ =
      { s with
        align :=
          { s.align with
            slip := !s.align.slip, winCnt := (s.align.winCnt + 1) % 2 ^ s.params.alignWinBits
            errTmr := (s.align.errTmr + 1) % 2 ^ s.params.alignErrBits }
        ghost := { s.ghost with slipReqCount := s.ghost.slipReqCount + 1 } } ∧
    (portValues t₁).slip = (!s.align.slip) ∧
    exec .alignMissOvf s = .next t₂ ∧
    t₂ =
      { s with
        align :=
          { s.align with
            slip := !s.align.slip, invert := !s.align.invert, winCnt := (s.align.winCnt + 1) % 2 ^ s.params.alignWinBits
            errTmr := (s.align.errTmr + 1) % 2 ^ s.params.alignErrBits }
        ghost :=
          { slipReqCount := s.ghost.slipReqCount + 1, invertToggleCount := s.ghost.invertToggleCount + 1 } } ∧
    exec .alignOvf s = .next t₃ ∧
    t₃ =
      { s with
        align :=
          { s.align with
            invert := !s.align.invert, winCnt := (s.align.winCnt + 1) % 2 ^ s.params.alignWinBits
            errTmr := (s.align.errTmr + 1) % 2 ^ s.params.alignErrBits }
        ghost := { s.ghost with invertToggleCount := s.ghost.invertToggleCount + 1 } } ∧
    (portValues t₃).invert = (!s.align.invert)) ∧
  Config.hardware.alignWinBits = 8 ∧ Config.hardware.alignErrBits = 16

/-- R152, R153: what LANE_STATUS and LANE_CONTROL show, and that they change nothing else. -/
def Obligations.LaneOperations : Prop :=
  (∀ s : State, ∃ t, exec .laneStatus s = .next t ∧
    t.out.present = (!s.sync.los.q2) ∧ t.out.locked = (!s.sync.lol.q2) ∧ t.out.aligned = s.sync.lss.q2 ∧
    t.out.alignLocked = decide (s.align.astate = .locked) ∧
    (∀ slot, slotGet t.out.rxValid slot = decide (slotGet s.inp.xcvr.rxRaw slot ≠ s.params.sentinel) ∧
      slotGet t.out.symbol slot = (slotGet s.inp.xcvr.rxRaw slot).extractLsb' 0 9) ∧
    t.out.detValid = decide (s.det.dstate = .done) ∧ t.out.detStatus = s.det.detStatus ∧
    t.out.slip = s.out.slip ∧ t.out.invert = s.out.invert ∧ t.out.pcieDetEn = s.out.pcieDetEn ∧
    t.out.pcieCt = s.out.pcieCt ∧ t.out.txSymbolOut = s.out.txSymbolOut ∧ { t with out := s.out } = s) ∧
  (∀ s : State, ∃ t, exec .laneControl s = .next t ∧
    t.out.slip = s.align.slip ∧ t.out.invert = s.align.invert ∧ t.out.pcieDetEn = s.det.pcieDetEn ∧
    t.out.pcieCt = s.det.pcieCt ∧ t.out.txSymbolOut = s.inp.consumer.txSymbol ∧
    t.out.present = s.out.present ∧ t.out.locked = s.out.locked ∧ t.out.aligned = s.out.aligned ∧
    t.out.alignLocked = s.out.alignLocked ∧ t.out.rxValid = s.out.rxValid ∧ t.out.symbol = s.out.symbol ∧
    t.out.detValid = s.out.detValid ∧ t.out.detStatus = s.out.detStatus ∧ { t with out := s.out } = s)

/-! ### Edges -/

/-- R100 to R114 as one table: a `tx` edge takes the detect registers where the state table says, reading the synchronized
flags as they were before the edge, and leaves the receive domain alone. -/
def Obligations.TxEdgeFollowsDetectTable : Prop :=
  ∀ s : State, nextEvent s = .tick .tx → ∃ t, step s = .next t ∧
    t.det = detNext s.params (s.inp.platform.rstTx || !s.inp.consumer.detEnable) s.sync.done.q2 s.sync.con.q2 s.det ∧
    t.align = s.align ∧ t.ghost = s.ghost ∧ t.inp = s.inp ∧ t.params = s.params

/-- R120 to R129 as one table: an `rx` edge takes the alignment registers where the state table says, the ghosts count the
level changes, and the transmit domain is left alone. -/
def Obligations.RxEdgeFollowsAlignTable : Prop :=
  ∀ s : State, nextEvent s = .tick .rx → ∃ t, step s = .next t ∧
    t.align =
      alignNext s.params s.inp.platform.rstRx s.inp.consumer.alignEnable (isPattern s.params s.inp.xcvr.rxRaw) s.align ∧
    t.ghost = ghostNext s.align t.align s.ghost ∧
    t.det = s.det ∧ t.inp = s.inp ∧ t.params = s.params

/-- R54, R24: an edge shifts exactly the instances its domain clocks, whatever the resets are. -/
def Obligations.EdgeShiftsItsInstances : Prop :=
  ∀ (s : State) (d : Domain), nextEvent s = .tick d → ∃ t, step s = .next t ∧
    ∀ inst, (destDomain s.params inst = d →
        (syncGet t.sync inst).q2 = (syncGet s.sync inst).q1 ∧
        (s.params.syncMeta = false ∨ (syncGet s.sync inst).prev = sourceValue s.inp inst →
          (syncGet t.sync inst).q1 = sourceValue s.inp inst)) ∧
      (destDomain s.params inst ≠ d → syncGet t.sync inst = syncGet s.sync inst)

/-- R23: which domain clocks each instance, and which input it samples; the three consumer instances follow `CONS_DOMAIN`. -/
def Obligations.InstanceSourcesAndDomains : Prop :=
  ∀ (p : Params) (v : InPorts),
    (destDomain p .los = p.consDomain ∧ destDomain p .lol = p.consDomain ∧ destDomain p .lss = p.consDomain ∧
      destDomain p .done = .tx ∧ destDomain p .con = .tx ∧ Config.hardware.consDomain = .cons) ∧
    (sourceValue v .los = v.xcvr.lossOfSignal ∧ sourceValue v .lol = v.xcvr.lossOfLock ∧
      sourceValue v .lss = v.xcvr.linkSyncStatus ∧ sourceValue v .done = v.xcvr.detectDone ∧
      sourceValue v .con = v.xcvr.detectResult)

/-- R180, R181: each reset condition, sampled at its domain's edge, resets one component and nothing else of the block:
no synchronizer stage, no `det_status`, and, without `rst_rx`, neither `slip` nor `invert`. -/
def Obligations.ResetsActOnOneComponent : Prop :=
  (∀ s : State, nextEvent s = .tick .tx → s.inp.platform.rstTx = true ∨ s.inp.consumer.detEnable = false →
    ∃ t, step s = .next t ∧
      t.det = { dstate := .start, dtimer := s.params.detHoldLoad, pcieDetEn := false, pcieCt := false,
                detStatus := s.det.detStatus } ∧
      t.align = s.align ∧ t.ghost = s.ghost ∧
      (∀ inst, destDomain s.params inst ≠ .tx → syncGet t.sync inst = syncGet s.sync inst) ∧
      ∀ inst, destDomain s.params inst = .tx → (syncGet t.sync inst).q2 = (syncGet s.sync inst).q1) ∧
  (∀ s : State, nextEvent s = .tick .rx → s.inp.platform.rstRx = true →
    ∃ t, step s = .next t ∧
      t.align = { astate := .search, winCnt := 0, errTmr := 0, slip := false, invert := false } ∧
      t.ghost.slipReqCount = s.ghost.slipReqCount + s.align.slip.toNat ∧
      t.ghost.invertToggleCount = s.ghost.invertToggleCount + s.align.invert.toNat ∧ t.det = s.det ∧
      ∀ inst, destDomain s.params inst ≠ .rx → syncGet t.sync inst = syncGet s.sync inst) ∧
  (∀ s : State, nextEvent s = .tick .rx → s.inp.platform.rstRx = false → s.inp.consumer.alignEnable = false →
    ∃ t, step s = .next t ∧
      t.align = { s.align with astate := .search, winCnt := 0, errTmr := 0 } ∧ t.ghost = s.ghost ∧ t.det = s.det ∧
      ∀ inst, destDomain s.params inst ≠ .rx → syncGet t.sync inst = syncGet s.sync inst)

/-- R140 to R151, R30: after every step, whatever the state before it, each output port shows its equation's value. -/
def Obligations.PortsShowTheirEquations : Prop :=
  ∀ s : State, ∃ t, step s = .next t ∧
    t.out.present = (!t.sync.los.q2) ∧ t.out.locked = (!t.sync.lol.q2) ∧ t.out.aligned = t.sync.lss.q2 ∧
    t.out.alignLocked = decide (t.align.astate = .locked) ∧
    t.out.detStatus = t.det.detStatus ∧ t.out.detValid = decide (t.det.dstate = .done) ∧
    t.out.invert = t.align.invert ∧ t.out.slip = t.align.slip ∧
    t.out.pcieDetEn = t.det.pcieDetEn ∧ t.out.pcieCt = t.det.pcieCt ∧
    t.out.txSymbolOut = t.inp.consumer.txSymbol

/-- R90, R91, R94 and, for `symbol`, R92 (decision D6): each slot's validity and symbol are those of its own raw word, and
of nothing else. That they are so after every step is R93 (decision D40), as log entry 8 (DEDUCED) reads it. -/
def Obligations.SlotsAreClassifiedAlone : Prop :=
  ∀ s : State, ∃ t, step s = .next t ∧ ∀ slot,
    (slotGet t.out.rxValid slot = false ↔ slotGet t.inp.xcvr.rxRaw slot = t.params.sentinel) ∧
    slotGet t.out.symbol slot = (slotGet t.inp.xcvr.rxRaw slot).extractLsb' 0 9

/-- R46: a change of the input ports between edges is remembered by no register. -/
def Obligations.PortChangesTouchNoRegister : Prop :=
  ∀ s : State, isDrive (nextEvent s) = true → ∃ t, step s = .next t ∧
    t.sync = s.sync ∧ t.det = s.det ∧ t.align = s.align ∧ t.ghost = s.ghost ∧ t.params = s.params ∧
    t.inp = present (nextEvent s) s.inp

/-- R22: a register changes only at an edge of the one domain that owns it, and the parameters never. -/
def Obligations.RegistersChangeOnlyInTheirDomain : Prop :=
  ∀ s t : State, step s = .next t →
    (t.det ≠ s.det → nextEvent s = .tick .tx) ∧
    (t.align ≠ s.align → nextEvent s = .tick .rx) ∧
    (t.ghost ≠ s.ghost → nextEvent s = .tick .rx) ∧
    (∀ inst, syncGet t.sync inst ≠ syncGet s.sync inst → nextEvent s = .tick (destDomain s.params inst)) ∧
    t.params = s.params

/-! ### Whole-machine rules -/

/-- R47: no operation and no step changes the parameters. -/
def Obligations.ParametersAreFixed : Prop :=
  (∀ (i : Instr) (s t : State), exec i s = .next t → t.params = s.params) ∧
  ∀ s t : State, step s = .next t → t.params = s.params

/-- R27, R28: which operations raise and lower `pcie_det_en` and `pcie_ct`. -/
def Obligations.DetectOutputsHaveTheirWriters : Prop :=
  ∀ (i : Instr) (s t : State), exec i s = .next t →
    (s.det.pcieDetEn = false → t.det.pcieDetEn = true → i = .rxdetStartExit) ∧
    (s.det.pcieDetEn = true → t.det.pcieDetEn = false → i = .rxdetReset) ∧
    (s.det.pcieCt = false → t.det.pcieCt = true → i = .rxdetSdhExit) ∧
    (s.det.pcieCt = true → t.det.pcieCt = false → i = .rxdetSshExit ∨ i = .rxdetReset)

/-- R29: `det_status` changes only where RXDET_WDH_EXIT is performed, and then it takes `con_s`. -/
def Obligations.DetStatusIsLatchedOnly : Prop :=
  (∀ (i : Instr) (s t : State), exec i s = .next t → t.det.detStatus ≠ s.det.detStatus →
    i = .rxdetWdhExit ∧ t.det.detStatus = s.sync.con.q2) ∧
  ∀ s t : State, step s = .next t → t.det.detStatus ≠ s.det.detStatus →
    nextEvent s = .tick .tx ∧ detRst s = false ∧ s.det.dstate = .waitDoneH ∧ s.sync.done.q2 = true ∧
    t.det.detStatus = s.sync.con.q2 ∧ t.det.dstate = .done

/-- R114: only a reset leaves DONE. -/
def Obligations.DoneIsLeftOnlyByReset : Prop :=
  ∀ s t : State, step s = .next t → s.det.dstate = .done → t.det ≠ s.det →
    nextEvent s = .tick .tx ∧ (s.inp.platform.rstTx = true ∨ s.inp.consumer.detEnable = false) ∧
    t.det.dstate = .start

/-- R135: only ALIGN_RESET and ALIGN_DISABLE leave LOCKED; the received symbols have no say. -/
def Obligations.LockedIsLeftOnlyByReset : Prop :=
  ∀ s t : State, step s = .next t → s.align.astate = .locked → t.align.astate ≠ .locked →
    nextEvent s = .tick .rx ∧ (s.inp.platform.rstRx = true ∨ s.inp.consumer.alignEnable = false)

/-- R119: DONE is entered only from WAIT_DONE_H with `done_s` high, and WAIT_DONE_H only from WAIT_DONE_L with `done_s`
low. -/
def Obligations.DoneNeedsLowThenHigh : Prop :=
  ∀ s t : State, step s = .next t →
    (t.det.dstate = .done → s.det.dstate ≠ .done → s.det.dstate = .waitDoneH ∧ s.sync.done.q2 = true) ∧
    (t.det.dstate = .waitDoneH → s.det.dstate ≠ .waitDoneH → s.det.dstate = .waitDoneL ∧ s.sync.done.q2 = false)

/-- R118, R185: a consumer that reads `det_status` while `det_valid` = 1 reads the register. -/
def Obligations.ValidStatusIsTheRegister : Prop :=
  ∀ s : State, PortsSettled s → s.out.detValid = true →
    observedDetStatus s = s.det.detStatus ∧ observeDetStatus s = (s.det.detStatus, s) ∧
    s.out.detStatus = s.det.detStatus ∧ s.det.dstate = .done

/-! ### Power-on and invariants -/

/-- R182: the power-on state, for every parameter value and every power-on draw: each controller register but `det_status`
at its reset value, the stages and `det_status` as drawn, the ghosts 0. -/
def Obligations.PowerOnValues : Prop :=
  (∀ (p : Params) (v : Syncs) (b : Bool),
    (State.powerOn p v b).det =
      { dstate := .start, dtimer := p.detHoldLoad, pcieDetEn := false, pcieCt := false, detStatus := b } ∧
    (State.powerOn p v b).align = { astate := .search, winCnt := 0, errTmr := 0, slip := false, invert := false } ∧
    (State.powerOn p v b).ghost = { slipReqCount := 0, invertToggleCount := 0 } ∧
    (State.powerOn p v b).sync = v) ∧
  ∃ (v : Syncs) (b : Bool), State.reset = State.powerOn Config.hardware v b

/-- Every power-on state with well-formed parameters meets the invariants, the state after reset among them. That power-on
holds the reset values is decision D33; that the ports show their equations there is log entry 8 (DEDUCED), from
44_lane_interface.md. -/
def Obligations.InvariantsHoldAtPowerOn : Prop :=
  (∀ (p : Params) (v : Syncs) (b : Bool), p.wf = true → Inv (State.powerOn p v b)) ∧ Inv State.reset

/-- R115's invariants of the detect registers are kept by every step. -/
def Obligations.StepKeepsDetectRegisters : Prop :=
  ∀ s t : State, DetConsistent s → step s = .next t → DetConsistent t

/-- R131's invariant of the alignment counters, with R33's for LOCKED and that both stay below their sizes, is kept by
every step, whatever the two widths are. -/
def Obligations.StepKeepsSearchCounters : Prop :=
  ∀ s t : State, SearchCounters s → step s = .next t → SearchCounters t

/-- R37, R130: that `slip` and `invert` are the parities of their change counts is kept by every step. -/
def Obligations.StepKeepsRequestParity : Prop :=
  ∀ s t : State, GhostParity s → step s = .next t → GhostParity t

/-- R131: where the counters run together and have a bit at least, ALIGN_MISS_OVF is never performed, and no edge toggles
`slip` and `invert` together while the search runs. -/
def Obligations.MissWithOverflowIsUnreachable : Prop :=
  ∀ s : State, SearchCounters s → 0 < s.params.alignWinBits → 0 < s.params.alignErrBits →
    fetch .align s ≠ .ok .alignMissOvf ∧
    ∀ t, step s = .next t → s.inp.platform.rstRx = false →
      t.align.slip = s.align.slip ∨ t.align.invert = s.align.invert

/-! ### Synchronizers over time -/

/-- R82, R84: a source that keeps its value is seen after exactly two edges of the destination, never after one; under
`SYNC_META` after three at the latest. -/
def Obligations.SourceIsSeenAfterTwoEdges : Prop :=
  (∀ (s : State) (inst : SyncInst) (v : Bool), s.params.syncMeta = false → sourceValue s.inp inst = v →
    ∃ t₁ t₂, react (.tick (destDomain s.params inst)) s = .next t₁ ∧
      react (.tick (destDomain s.params inst)) t₁ = .next t₂ ∧
      syncOut t₁ inst = (syncGet s.sync inst).q1 ∧ syncOut t₂ inst = v ∧ (syncGet t₂.sync inst).q1 = v) ∧
  (∀ (s : State) (inst : SyncInst) (v : Bool), sourceValue s.inp inst = v →
    ∃ t₁ t₂ t₃, react (.tick (destDomain s.params inst)) s = .next t₁ ∧
      react (.tick (destDomain s.params inst)) t₁ = .next t₂ ∧
      react (.tick (destDomain s.params inst)) t₂ = .next t₃ ∧
      syncOut t₁ inst = (syncGet s.sync inst).q1 ∧ syncOut t₃ inst = v)

/-- R83: whatever the agents present between two edges, only what stands at the edge is seen. -/
def Obligations.OnlyEdgesSeeTheSource : Prop :=
  ∀ (es : List Event) (d : Domain) (s : State), es.all isDrive = true →
    ∃ t, runEvents (es ++ [.tick d]) s = .next t ∧
      react (.tick d) (s.setInp (es.foldl (fun p e => present e p) s.inp)) = .next t

/-- R187: without `SYNC_META`, the latched result is `detect_result` as it was two `tx` edges earlier, when `detect_done`
was sampled high. -/
def Obligations.LatchedResultIsTwoEdgesOld : Prop :=
  ∀ (s t₁ t₂ t₃ : State) (x : XcvrPorts), s.params.syncMeta = false → s.inp.xcvr.detectDone = true →
    runEvents [.tick .tx, .transceiver x] s = .next t₁ → react (.tick .tx) t₁ = .next t₂ →
    t₂.det.dstate = .waitDoneH → detRst t₂ = false → react (.tick .tx) t₂ = .next t₃ →
    t₃.det.dstate = .done ∧ t₃.det.detStatus = s.inp.xcvr.detectResult

/-! ### Runs of the detect sequence -/

/-- R115, R116 in terms of the parameters: from START with the timer loaded, after `n` `tx` edges with the sequence
enabled, whatever the other domains do in between, the detect registers are where the timeline says; `H` is the hold load
and `P` the strobe load. -/
def Obligations.DetectTimeline : Prop :=
  ∀ (es : List Event) (s : State) (n H P : Nat),
    s.det.dstate = .start → s.det.dtimer = s.params.detHoldLoad → s.det.pcieDetEn = false → s.det.pcieCt = false →
    s.inp.platform.rstTx = false → s.inp.consumer.detEnable = true → es.all keepsDetecting = true →
    n = es.countP (isTick .tx) → H = s.params.detHoldLoad.toNat → P = s.params.detStrobeLoad.toNat →
    ∃ t, runEvents es s = .next t ∧
    (n ≤ H → t.det.dstate = .start ∧ t.det.dtimer.toNat = H - n ∧ t.det.pcieDetEn = false ∧ t.det.pcieCt = false) ∧
    (H + 1 ≤ n → n ≤ 2 * H + 1 →
      t.det.dstate = .setDetectH ∧ t.det.dtimer.toNat = 2 * H + 1 - n ∧ t.det.pcieDetEn = true ∧ t.det.pcieCt = false) ∧
    (2 * H + 2 ≤ n → n ≤ 2 * H + P + 2 →
      t.det.dstate = .setStrobeH ∧ t.det.dtimer.toNat = 2 * H + P + 2 - n ∧ t.det.pcieDetEn = true ∧
      t.det.pcieCt = true) ∧
    (n = 2 * H + P + 3 →
      t.det.dstate = .setStrobeL ∧ t.det.dtimer = 0 ∧ t.det.pcieDetEn = true ∧ t.det.pcieCt = false) ∧
    (n = 2 * H + P + 4 →
      t.det.dstate = .waitDoneL ∧ t.det.dtimer = 0 ∧ t.det.pcieDetEn = true ∧ t.det.pcieCt = false)

/-- R117: there is no timeout. While `detect_done` stays high the controller stays in WAIT_DONE_L, and while it stays low
it stays in WAIT_DONE_H, over any number of edges, `det_valid` staying 0. -/
def Obligations.WaitsHaveNoTimeout : Prop :=
  ∀ (es : List Event) (s : State) (level : Bool),
    s.det.dstate = (if level then .waitDoneL else .waitDoneH) →
    s.sync.done.q1 = level → s.sync.done.q2 = level → (s.params.syncMeta = false ∨ s.sync.done.prev = level) →
    s.inp.xcvr.detectDone = level →
    s.inp.platform.rstTx = false → s.inp.consumer.detEnable = true →
    es.all keepsDetecting = true → es.all (keepsDone level) = true →
    ∃ t, runEvents es s = .next t ∧ t.det = s.det ∧ detValidFlag t = false

/-- R196, R56: in every sequence of the agents' steps that is fair to `tx` and keeps the sequence enabled, a controller in
START, whatever its timer holds, reaches WAIT_DONE_L. -/
def Obligations.FairRunReachesWait : Prop :=
  ∀ (e : Nat → Event) (r : Nat → State), IsRun e r → FairTo .tx e →
    (∀ n, (r n).inp.platform.rstTx = false ∧ (r n).inp.consumer.detEnable = true) →
    (r 0).det.dstate = .start → ∃ n, (r n).det.dstate = .waitDoneL

/-! ### Runs of the alignment search -/

/-- R131, R134: a search that never sees the pattern, from its start, over any steps of the agents that leave it enabled:
after `n` `rx` edges both counters are `n` modulo their sizes, one slip has been requested per window begun (a window is
2^`ALIGN_WIN_BITS` edges, 256 on this hardware) and one inversion per 2^`ALIGN_ERR_BITS` edges (65536), and the controller
still searches. -/
def Obligations.SearchNeverEndsUnmatched : Prop :=
  ∀ (es : List Event) (s : State),
    s.align.astate = .search → s.align.winCnt = 0 → s.align.errTmr = 0 →
    s.inp.platform.rstRx = false → s.inp.consumer.alignEnable = true → isPattern s.params s.inp.xcvr.rxRaw = false →
    es.all keepsAligning = true → es.all (presentsNoPattern s.params) = true →
    ∃ t, runEvents es s = .next t ∧ t.align.astate = .search ∧
      t.align.winCnt = es.countP (isTick .rx) % 2 ^ s.params.alignWinBits ∧
      t.align.errTmr = es.countP (isTick .rx) % 2 ^ s.params.alignErrBits ∧
      t.ghost.slipReqCount = s.ghost.slipReqCount +
        (es.countP (isTick .rx) + (2 ^ s.params.alignWinBits - 1)) / 2 ^ s.params.alignWinBits ∧
      t.ghost.invertToggleCount = s.ghost.invertToggleCount + es.countP (isTick .rx) / 2 ^ s.params.alignErrBits

/-- R133: a window is `W` = 2^`ALIGN_WIN_BITS` edges, 256 on this hardware. Where the pattern is absent at the window edges
0, W, …, W·(n−1) and present at edge W·n, with 1 ≤ n and the error timer too wide to wrap by then (on this hardware
n ≤ 255), and whatever the slots hold at the other edges, the controller is LOCKED after edge W·n with `n` slips requested
and no inversion. -/
def Obligations.SearchLocksAfterNSlips : Prop :=
  ∀ (s : State) (x : XcvrPorts) (w : Nat → Slots RawWord) (n W : Nat), W = 2 ^ s.params.alignWinBits →
    1 ≤ n → W * n < 2 ^ s.params.alignErrBits →
    s.align.astate = .search → s.align.winCnt = 0 → s.align.errTmr = 0 →
    s.inp.platform.rstRx = false → s.inp.consumer.alignEnable = true →
    (∀ k, k < n → isPattern s.params (w (W * k)) = false) → isPattern s.params (w (W * n)) = true →
    ∃ t, runEvents (receive x w (W * n + 1)) s = .next t ∧ t.align.astate = .locked ∧
      t.ghost.slipReqCount = s.ghost.slipReqCount + n ∧ t.align.slip = (s.align.slip ^^ (n % 2 == 1)) ∧
      t.align.invert = s.align.invert ∧ t.ghost.invertToggleCount = s.ghost.invertToggleCount

/-- R132: with the pattern in the slots at the first edge of a search the controller locks at that edge, and `slip` never
changes afterwards, whatever is received, while the search stays enabled. -/
def Obligations.ZeroOffsetLocksWithoutSlip : Prop :=
  ∀ (es : List Event) (s : State),
    s.align.astate = .search → s.align.winCnt = 0 → s.inp.platform.rstRx = false →
    s.inp.consumer.alignEnable = true → isPattern s.params s.inp.xcvr.rxRaw = true → es.all keepsAligning = true →
    ∃ t₁ t, react (.tick .rx) s = .next t₁ ∧ runEvents es t₁ = .next t ∧
      t₁.align.astate = .locked ∧ t.align.astate = .locked ∧ t.align.slip = s.align.slip ∧
      t.ghost.slipReqCount = s.ghost.slipReqCount

/-- R192: one edge with `align_enable` = 0 and the next enabled edge is a window edge of a new search, which starts from
the phase and polarity the last one left (with an error timer of one bit or more). -/
def Obligations.RestartKeepsPhase : Prop :=
  ∀ (s t₁ t₂ : State) (c : ConsumerPorts), 0 < s.params.alignErrBits →
    s.inp.platform.rstRx = false → s.inp.consumer.alignEnable = false → c.alignEnable = true → react (.tick .rx) s = .next t₁ → react (.consumer c) t₁ = .next t₂ →
    t₂.align = { s.align with astate := .search, winCnt := 0, errTmr := 0 } ∧
    fetch .align t₂ = .ok (if isPattern s.params s.inp.xcvr.rxRaw then .alignMatch else .alignMiss)

/-! ### Isolation -/

/-- R22, R55: the transmit domain cannot tell whether the other domains tick: taking every edge of `rx`, `ref` and `cons`
out of a list of steps leaves what `tx` holds as it was (without `SYNC_META`, whose draws all instances share). -/
def Obligations.TransmitDomainIsIsolated : Prop :=
  ∀ (es : List Event) (s t t' : State), s.params.syncMeta = false →
    runEvents es s = .next t →
    runEvents (es.filter fun e => !(isTick .rx e || isTick .ref e || isTick .cons e)) s = .next t' →
    txView t = txView t'

/-- R22, R55: the receive domain cannot tell whether the other domains tick, nor what the transmit domain holds. -/
def Obligations.ReceiveDomainIsIsolated : Prop :=
  ∀ (es : List Event) (s s' t t' : State), rxView s = rxView s' → s.inp = s'.inp → s.params = s'.params →
    runEvents es s = .next t →
    runEvents (es.filter fun e => !(isTick .tx e || isTick .ref e || isTick .cons e)) s' = .next t' →
    rxView t = rxView t'

/-! ### The stimulus script and the timing constants -/

/-- R78, R79: what the pseudo-operations leave, and that a step line's encoding, read back over the ports held before the
line, presents what the line sets; `tx_symbol` alone has no place in it (R77). The reset scripts reset their controller with one edge and leave their
reset input at 0, every other input port as it was; the flush scripts leave both stages of each instance the domain clocks
at the source's value (without `SYNC_META`). -/
def Obligations.ScriptPseudoOperations : Prop :=
  (∀ s : State, ∃ t, runScript resetTx s = some t ∧
    t.det = { dstate := .start, dtimer := s.params.detHoldLoad, pcieDetEn := false, pcieCt := false,
              detStatus := s.det.detStatus } ∧
    t.inp = { s.inp with platform := { s.inp.platform with rstTx := false } } ∧
    t.align = s.align ∧ t.ghost = s.ghost) ∧
  (∀ s : State, ∃ t, runScript resetRx s = some t ∧
    t.align = { astate := .search, winCnt := 0, errTmr := 0, slip := false, invert := false } ∧
    t.inp = { s.inp with platform := { s.inp.platform with rstRx := false } } ∧ t.det = s.det) ∧
  (∀ s : State, s.params.syncMeta = false → ∃ t, runScript flushTx s = some t ∧ t.inp = s.inp ∧
    ∀ inst, destDomain s.params inst = .tx →
      (syncGet t.sync inst).q1 = sourceValue s.inp inst ∧ (syncGet t.sync inst).q2 = sourceValue s.inp inst) ∧
  (∀ s : State, s.params.syncMeta = false → ∃ t, runScript flushCons s = some t ∧ t.inp = s.inp ∧
    ∀ inst, destDomain s.params inst = .cons →
      (syncGet t.sync inst).q1 = sourceValue s.inp inst ∧ (syncGet t.sync inst).q2 = sourceValue s.inp inst) ∧
  (∀ (d : Domain) (as : List Assign) (count draws : Nat) (p : InPorts), (Line.step d as count).wf = true →
    (encodeStep d as count (p, draws)).domain = d ∧ (encodeStep d as count (p, draws)).count = count ∧
    vectorPorts d (encodeStep d as count (p, draws)).vector p =
      { (assignAll as (p, draws)).1 with
        consumer := { (assignAll as (p, draws)).1.consumer with txSymbol := p.consumer.txSymbol } })

/-- R195, R116: the hold load for a tick of `T` nanoseconds is the least number of ticks that last 120 ns or more; the model
instance for `T`, from 8 ns on, takes that load and the strobe load 3; the instance for 8 ns is this hardware. -/
def Obligations.HoldLoadKeepsTheHold : Prop :=
  (∀ T : Nat, 0 < T → 120 ≤ holdLoadFor T * T ∧ ∀ n, 120 ≤ n * T → holdLoadFor T ≤ n) ∧
  (∀ T : Nat, 8 ≤ T → (instanceFor T).detHoldLoad.toNat = holdLoadFor T ∧ (instanceFor T).tickNs = T ∧
    (instanceFor T).detStrobeLoad = 3) ∧
  instanceFor 8 = Config.hardware ∧ holdLoadFor 8 = Config.hardware.detHoldLoad.toNat
end

