-- ==== Sys2Proof/Laws/State.lean ====
section
/-! SUPPORT. One lemma per field per whole-part update of the state, each true by rfl. -/

namespace Sys2Proof.Machine

@[simp] theorem setSync_params (s : State) (v : Syncs) : (s.setSync v).params = s.params := rfl
@[simp] theorem setSync_sync (s : State) (v : Syncs) : (s.setSync v).sync = v := rfl
@[simp] theorem setSync_det (s : State) (v : Syncs) : (s.setSync v).det = s.det := rfl
@[simp] theorem setSync_align (s : State) (v : Syncs) : (s.setSync v).align = s.align := rfl
@[simp] theorem setSync_ghost (s : State) (v : Syncs) : (s.setSync v).ghost = s.ghost := rfl
@[simp] theorem setSync_inp (s : State) (v : Syncs) : (s.setSync v).inp = s.inp := rfl
@[simp] theorem setSync_out (s : State) (v : Syncs) : (s.setSync v).out = s.out := rfl
@[simp] theorem setSync_pending (s : State) (v : Syncs) : (s.setSync v).pending = s.pending := rfl
@[simp] theorem setSync_draws (s : State) (v : Syncs) : (s.setSync v).draws = s.draws := rfl

@[simp] theorem setDet_params (s : State) (v : DetRegs) : (s.setDet v).params = s.params := rfl
@[simp] theorem setDet_sync (s : State) (v : DetRegs) : (s.setDet v).sync = s.sync := rfl
@[simp] theorem setDet_det (s : State) (v : DetRegs) : (s.setDet v).det = v := rfl
@[simp] theorem setDet_align (s : State) (v : DetRegs) : (s.setDet v).align = s.align := rfl
@[simp] theorem setDet_ghost (s : State) (v : DetRegs) : (s.setDet v).ghost = s.ghost := rfl
@[simp] theorem setDet_inp (s : State) (v : DetRegs) : (s.setDet v).inp = s.inp := rfl
@[simp] theorem setDet_out (s : State) (v : DetRegs) : (s.setDet v).out = s.out := rfl
@[simp] theorem setDet_pending (s : State) (v : DetRegs) : (s.setDet v).pending = s.pending := rfl
@[simp] theorem setDet_draws (s : State) (v : DetRegs) : (s.setDet v).draws = s.draws := rfl

@[simp] theorem setAlign_params (s : State) (v : AlignRegs) : (s.setAlign v).params = s.params := rfl
@[simp] theorem setAlign_sync (s : State) (v : AlignRegs) : (s.setAlign v).sync = s.sync := rfl
@[simp] theorem setAlign_det (s : State) (v : AlignRegs) : (s.setAlign v).det = s.det := rfl
@[simp] theorem setAlign_align (s : State) (v : AlignRegs) : (s.setAlign v).align = v := rfl
@[simp] theorem setAlign_ghost (s : State) (v : AlignRegs) : (s.setAlign v).ghost = s.ghost := rfl
@[simp] theorem setAlign_inp (s : State) (v : AlignRegs) : (s.setAlign v).inp = s.inp := rfl
@[simp] theorem setAlign_out (s : State) (v : AlignRegs) : (s.setAlign v).out = s.out := rfl
@[simp] theorem setAlign_pending (s : State) (v : AlignRegs) : (s.setAlign v).pending = s.pending := rfl
@[simp] theorem setAlign_draws (s : State) (v : AlignRegs) : (s.setAlign v).draws = s.draws := rfl

@[simp] theorem setGhost_params (s : State) (v : Ghost) : (s.setGhost v).params = s.params := rfl
@[simp] theorem setGhost_sync (s : State) (v : Ghost) : (s.setGhost v).sync = s.sync := rfl
@[simp] theorem setGhost_det (s : State) (v : Ghost) : (s.setGhost v).det = s.det := rfl
@[simp] theorem setGhost_align (s : State) (v : Ghost) : (s.setGhost v).align = s.align := rfl
@[simp] theorem setGhost_ghost (s : State) (v : Ghost) : (s.setGhost v).ghost = v := rfl
@[simp] theorem setGhost_inp (s : State) (v : Ghost) : (s.setGhost v).inp = s.inp := rfl
@[simp] theorem setGhost_out (s : State) (v : Ghost) : (s.setGhost v).out = s.out := rfl
@[simp] theorem setGhost_pending (s : State) (v : Ghost) : (s.setGhost v).pending = s.pending := rfl
@[simp] theorem setGhost_draws (s : State) (v : Ghost) : (s.setGhost v).draws = s.draws := rfl

@[simp] theorem setInp_params (s : State) (v : InPorts) : (s.setInp v).params = s.params := rfl
@[simp] theorem setInp_sync (s : State) (v : InPorts) : (s.setInp v).sync = s.sync := rfl
@[simp] theorem setInp_det (s : State) (v : InPorts) : (s.setInp v).det = s.det := rfl
@[simp] theorem setInp_align (s : State) (v : InPorts) : (s.setInp v).align = s.align := rfl
@[simp] theorem setInp_ghost (s : State) (v : InPorts) : (s.setInp v).ghost = s.ghost := rfl
@[simp] theorem setInp_inp (s : State) (v : InPorts) : (s.setInp v).inp = v := rfl
@[simp] theorem setInp_out (s : State) (v : InPorts) : (s.setInp v).out = s.out := rfl
@[simp] theorem setInp_pending (s : State) (v : InPorts) : (s.setInp v).pending = s.pending := rfl
@[simp] theorem setInp_draws (s : State) (v : InPorts) : (s.setInp v).draws = s.draws := rfl

@[simp] theorem setOut_params (s : State) (v : OutPorts) : (s.setOut v).params = s.params := rfl
@[simp] theorem setOut_sync (s : State) (v : OutPorts) : (s.setOut v).sync = s.sync := rfl
@[simp] theorem setOut_det (s : State) (v : OutPorts) : (s.setOut v).det = s.det := rfl
@[simp] theorem setOut_align (s : State) (v : OutPorts) : (s.setOut v).align = s.align := rfl
@[simp] theorem setOut_ghost (s : State) (v : OutPorts) : (s.setOut v).ghost = s.ghost := rfl
@[simp] theorem setOut_inp (s : State) (v : OutPorts) : (s.setOut v).inp = s.inp := rfl
@[simp] theorem setOut_out (s : State) (v : OutPorts) : (s.setOut v).out = v := rfl
@[simp] theorem setOut_pending (s : State) (v : OutPorts) : (s.setOut v).pending = s.pending := rfl
@[simp] theorem setOut_draws (s : State) (v : OutPorts) : (s.setOut v).draws = s.draws := rfl

@[simp] theorem setPending_params (s : State) (v : List Event) : (s.setPending v).params = s.params := rfl
@[simp] theorem setPending_sync (s : State) (v : List Event) : (s.setPending v).sync = s.sync := rfl
@[simp] theorem setPending_det (s : State) (v : List Event) : (s.setPending v).det = s.det := rfl
@[simp] theorem setPending_align (s : State) (v : List Event) : (s.setPending v).align = s.align := rfl
@[simp] theorem setPending_ghost (s : State) (v : List Event) : (s.setPending v).ghost = s.ghost := rfl
@[simp] theorem setPending_inp (s : State) (v : List Event) : (s.setPending v).inp = s.inp := rfl
@[simp] theorem setPending_out (s : State) (v : List Event) : (s.setPending v).out = s.out := rfl
@[simp] theorem setPending_pending (s : State) (v : List Event) : (s.setPending v).pending = v := rfl
@[simp] theorem setPending_draws (s : State) (v : List Event) : (s.setPending v).draws = s.draws := rfl

@[simp] theorem setDraws_params (s : State) (v : Nat) : (s.setDraws v).params = s.params := rfl
@[simp] theorem setDraws_sync (s : State) (v : Nat) : (s.setDraws v).sync = s.sync := rfl
@[simp] theorem setDraws_det (s : State) (v : Nat) : (s.setDraws v).det = s.det := rfl
@[simp] theorem setDraws_align (s : State) (v : Nat) : (s.setDraws v).align = s.align := rfl
@[simp] theorem setDraws_ghost (s : State) (v : Nat) : (s.setDraws v).ghost = s.ghost := rfl
@[simp] theorem setDraws_inp (s : State) (v : Nat) : (s.setDraws v).inp = s.inp := rfl
@[simp] theorem setDraws_out (s : State) (v : Nat) : (s.setDraws v).out = s.out := rfl
@[simp] theorem setDraws_pending (s : State) (v : Nat) : (s.setDraws v).pending = s.pending := rfl
@[simp] theorem setDraws_draws (s : State) (v : Nat) : (s.setDraws v).draws = v := rfl

end Sys2Proof.Machine
end

