-- ==== Sys2Proof/Laws/Ops.lean ====
section
/-! SUPPORT. What each shared operation of Machine/Ops.lean does. -/

namespace Sys2Proof.Machine

@[simp] theorem andThen_next (s : State) (f : State → Result) : andThen (.next s) f = f s := rfl
@[simp] theorem andThen_fault (r : Fault) (f : State → Result) : andThen (.fault r) f = .fault r := rfl
@[simp] theorem andThen_refused (r : Refusal) (f : State → Result) : andThen (.refused r) f = .refused r := rfl

/-- `andThen` answers a next state only through one. -/
theorem andThen_eq_next {o : Result} {f : State → Result} {t : State} (h : andThen o f = .next t) :
    ∃ s, o = .next s ∧ f s = .next t := by
  cases o with
  | next s => exact ⟨s, rfl, h⟩
  | fault r => cases h
  | refused r => cases h

theorem slotGet_slotSet {α : Type} (v : Slots α) (i j : Slot) (x : α) :
    slotGet (slotSet v i x) j = if j = i then x else slotGet v j := by
  cases i <;> cases j <;> rfl

theorem syncGet_syncSet (v : Syncs) (i j : SyncInst) (r : SyncRegs) :
    syncGet (syncSet v i r) j = if j = i then r else syncGet v j := by
  cases i <;> cases j <;> rfl

/-- `S_done` and `S_con` belong to `tx` (R23). -/
@[simp] theorem destDomain_done (p : Params) : destDomain p .done = .tx := rfl
@[simp] theorem destDomain_con (p : Params) : destDomain p .con = .tx := rfl

/-- A shift writes only its instance's registers and the draw counter. -/
theorem shiftSync_eq (i : SyncInst) (v : Bool) (s : State) :
    ∃ r n, shiftSync i v s = { s with sync := syncSet s.sync i r, draws := n } ∧ r.q2 = (syncGet s.sync i).q1 :=
  ⟨_, _, rfl, rfl⟩

@[simp] theorem shiftSync_params (i : SyncInst) (v : Bool) (s : State) : (shiftSync i v s).params = s.params := rfl
@[simp] theorem shiftSync_det (i : SyncInst) (v : Bool) (s : State) : (shiftSync i v s).det = s.det := rfl
@[simp] theorem shiftSync_align (i : SyncInst) (v : Bool) (s : State) : (shiftSync i v s).align = s.align := rfl
@[simp] theorem shiftSync_ghost (i : SyncInst) (v : Bool) (s : State) : (shiftSync i v s).ghost = s.ghost := rfl
@[simp] theorem shiftSync_inp (i : SyncInst) (v : Bool) (s : State) : (shiftSync i v s).inp = s.inp := rfl
@[simp] theorem shiftSync_out (i : SyncInst) (v : Bool) (s : State) : (shiftSync i v s).out = s.out := rfl
@[simp] theorem shiftSync_pending (i : SyncInst) (v : Bool) (s : State) : (shiftSync i v s).pending = s.pending := rfl

/-- The two stages after a shift without `SYNC_META` (R80). -/
theorem shiftRegs_plain {p : Params} (h : p.syncMeta = false) (r : SyncRegs) (v free : Bool) :
    shiftRegs p r v free = ⟨v, r.q1, r.prev⟩ := by
  simp [shiftRegs, resolvesLate, h]

/-- The two stages after a shift under `SYNC_META` when the source did not change (R84). -/
theorem shiftRegs_steady {p : Params} {r : SyncRegs} {v : Bool} (h : r.prev = v) (free : Bool) :
    shiftRegs p r v free = ⟨v, r.q1, r.prev⟩ := by
  simp [shiftRegs, resolvesLate, h]

/-- `driveSlip` by fields: the level, and one more request when it changes (R130). -/
theorem driveSlip_eq (b : Bool) (s : State) :
    driveSlip b s =
      { s with
        align := { s.align with slip := b }
        ghost := { s.ghost with
          slipReqCount := if s.align.slip = b then s.ghost.slipReqCount else s.ghost.slipReqCount + 1 } } := by
  by_cases h : s.align.slip = b <;> simp [driveSlip, h]

/-- `driveInvert` by fields (R37). -/
theorem driveInvert_eq (b : Bool) (s : State) :
    driveInvert b s =
      { s with
        align := { s.align with invert := b }
        ghost := { s.ghost with
          invertToggleCount :=
            if s.align.invert = b then s.ghost.invertToggleCount else s.ghost.invertToggleCount + 1 } } := by
  by_cases h : s.align.invert = b <;> simp [driveInvert, h]

/-- A toggle of `slip` is always one request. -/
theorem toggleSlip_eq (s : State) :
    toggleSlip s =
      { s with
        align := { s.align with slip := !s.align.slip }
        ghost := { s.ghost with slipReqCount := s.ghost.slipReqCount + 1 } } := by
  simp [toggleSlip, driveSlip]

/-- A toggle of `invert` is always counted. -/
theorem toggleInvert_eq (s : State) :
    toggleInvert s =
      { s with
        align := { s.align with invert := !s.align.invert }
        ghost := { s.ghost with invertToggleCount := s.ghost.invertToggleCount + 1 } } := by
  simp [toggleInvert, driveInvert]

/-- An advanced counter stays below its size, whatever it was (R32, R33). -/
theorem advanceWindow_lt (s : State) : (advanceWindow s).align.winCnt < 2 ^ s.params.alignWinBits :=
  Nat.mod_lt _ (Nat.two_pow_pos _)
theorem advanceErr_lt (s : State) : (advanceErr s).align.errTmr < 2 ^ s.params.alignErrBits :=
  Nat.mod_lt _ (Nat.two_pow_pos _)

/-- The coming step and the state without it, when one is pending. -/
theorem nextEvent_cons {s : State} {e : Event} {es : List Event} (h : s.pending = e :: es) :
    nextEvent s = e ∧ consumeEvent s = s.setPending es := by
  simp [nextEvent, consumeEvent, State.setPending, h]

/-- Taking a step off the list changes only the list or the draw counter. -/
theorem consumeEvent_eq (s : State) : ∃ es n, consumeEvent s = { s with pending := es, draws := n } := by
  unfold consumeEvent
  cases h : s.pending with
  | nil => exact ⟨[], s.draws + 1, by simp [← h]⟩
  | cons e es => exact ⟨es, s.draws, rfl⟩

@[simp] theorem consumeEvent_params (s : State) : (consumeEvent s).params = s.params := by
  obtain ⟨_, _, h⟩ := consumeEvent_eq s; rw [h]
@[simp] theorem consumeEvent_sync (s : State) : (consumeEvent s).sync = s.sync := by
  obtain ⟨_, _, h⟩ := consumeEvent_eq s; rw [h]
@[simp] theorem consumeEvent_det (s : State) : (consumeEvent s).det = s.det := by
  obtain ⟨_, _, h⟩ := consumeEvent_eq s; rw [h]
@[simp] theorem consumeEvent_align (s : State) : (consumeEvent s).align = s.align := by
  obtain ⟨_, _, h⟩ := consumeEvent_eq s; rw [h]
@[simp] theorem consumeEvent_ghost (s : State) : (consumeEvent s).ghost = s.ghost := by
  obtain ⟨_, _, h⟩ := consumeEvent_eq s; rw [h]
@[simp] theorem consumeEvent_inp (s : State) : (consumeEvent s).inp = s.inp := by
  obtain ⟨_, _, h⟩ := consumeEvent_eq s; rw [h]
@[simp] theorem consumeEvent_out (s : State) : (consumeEvent s).out = s.out := by
  obtain ⟨_, _, h⟩ := consumeEvent_eq s; rw [h]

end Sys2Proof.Machine
end

