-- ==== Sys2Proof/Laws/Decode.lean ====
section
/-! SUPPORT. What each component's selector word decodes to, in every state. -/

namespace Sys2Proof.Machine

/-- The detect operation for given selector bits, as the rows of `RXDET_SEL` read (R71). -/
def rxdetPick (rst : Bool) (d : DState) (zero done : Bool) : Instr :=
  if rst then .rxdetReset
  else match d with
    | .start => if zero then .rxdetStartExit else .rxdetStartCount
    | .setDetectH => if zero then .rxdetSdhExit else .rxdetSdhCount
    | .setStrobeH => if zero then .rxdetSshExit else .rxdetSshCount
    | .setStrobeL => .rxdetSsl
    | .waitDoneL => if done then .rxdetWdlWait else .rxdetWdlExit
    | .waitDoneH => if done then .rxdetWdhExit else .rxdetWdhWait
    | .done => .rxdetDoneHold

/-- The alignment operation for given selector bits, as the rows of `ALIGN_SEL` read (R73). -/
def alignPick (rst disable : Bool) (a : AState) (zero m ovf : Bool) : Instr :=
  if rst then .alignReset
  else if disable then .alignDisable
  else match a with
    | .locked => .alignLockedHold
    | .search =>
      if zero then (if m then .alignMatch else if ovf then .alignMissOvf else .alignMiss)
      else if ovf then .alignOvf else .alignCount

/-- A word with a bit above its format's width is refused. -/
theorem decode_tooWide {n : RawWord} {sel : SelWord} (h : 2 ^ formatWidth sel.format ≤ sel.bits) :
    decode n sel = .error .tooWide := by
  unfold decode
  exact if_pos h

/-- A raw word's operation. -/
theorem decode_svc (n : RawWord) (slot : Slot) {w : Nat} (h : w < 1024) :
    decode n ⟨.svc slot, w⟩ = .ok (decodeSvc n slot (BitVec.ofNat 10 w)) := by
  unfold decode
  exact if_neg (Nat.not_le.mpr h)

/-- Only the checker's words are read with the sentinel. -/
theorem decode_sentinel_irrel (n m : RawWord) {sel : SelWord} (h : ∀ slot, sel.format ≠ .svc slot) :
    decode n sel = decode m sel := by
  rcases sel with ⟨_ | slot | _ | _ | _ | _, b⟩ <;> first | rfl | exact absurd rfl (h slot)

/-- The rows of `RXDET_SEL`, every selector a state can present. -/
theorem decode_rxdet (n : RawWord) (r : Bool) (d : DState) (z q : Bool) :
    decode n ⟨.rxdet, (BitVec.ofBool r ++ dstateCode d ++ BitVec.ofBool z ++ BitVec.ofBool q).toNat⟩ =
      .ok (rxdetPick r d z q) := by
  cases r <;> cases d <;> cases z <;> cases q <;> rfl

/-- The rows of `ALIGN_SEL`, every selector. -/
theorem decode_align (sentinel : RawWord) (x n : Bool) (a : AState) (w m o : Bool) :
    decode sentinel ⟨.align, (BitVec.ofBool x ++ BitVec.ofBool n ++ astateCode a ++ BitVec.ofBool w ++ BitVec.ofBool m
        ++ BitVec.ofBool o).toNat⟩ = .ok (alignPick x n a w m o) := by
  cases x <;> cases n <;> cases a <;> cases w <;> cases m <;> cases o <;> rfl

theorem fetch_rxdet (s : State) :
    fetch .rxdet s = .ok (rxdetPick (detRst s) s.det.dstate (s.det.dtimer == 0) (doneS s)) :=
  decode_rxdet _ _ _ _ _

theorem fetch_align (s : State) :
    fetch .align s =
      .ok (alignPick s.inp.platform.rstRx (!s.inp.consumer.alignEnable) s.align.astate (s.align.winCnt == 0)
        (framingMatch s) (s.align.errTmr == errTop s.params)) :=
  decode_align _ _ _ _ _ _ _

theorem fetch_sync (i : SyncInst) (s : State) : fetch (.sync i) s = .ok (.syncShift i (sourceValue s.inp i)) := by
  show decode s.params.sentinel ⟨.sync i, (sourceValue s.inp i).toNat⟩ = _
  cases sourceValue s.inp i <;> simp [decode, formatWidth]

theorem fetch_svc (slot : Slot) (s : State) :
    fetch (.svc slot) s = .ok (decodeSvc s.params.sentinel slot (slotGet s.inp.xcvr.rxRaw slot)) := by
  have h := decode_svc s.params.sentinel slot (slotGet s.inp.xcvr.rxRaw slot).isLt
  rwa [BitVec.ofNat_toNat, BitVec.setWidth_eq] at h

theorem fetch_laneStatus (s : State) : fetch .laneStatus s = .ok .laneStatus := rfl
theorem fetch_laneControl (s : State) : fetch .laneControl s = .ok .laneControl := rfl

/-- A raw word's row is the sentinel's or the fallback (R74 (a)). -/
theorem decodeSvc_eq (sentinel : RawWord) (slot : Slot) (raw : RawWord) :
    decodeSvc sentinel slot raw = if raw = sentinel then .svcInvalid slot else .svcValid slot raw := by
  have h : raw &&& 0x3FF = raw := BitVec.and_allOnes
  unfold decodeSvc
  rw [h]

/-- Either row of the checker classifies the slot by its raw word (R90 to R92). -/
theorem exec_decodeSvc {sentinel : RawWord} (slot : Slot) (raw : RawWord) {s : State} (hs : s.params.sentinel = sentinel) :
    exec (decodeSvc sentinel slot raw) s = .next (classifySlot slot (rawValid s.params raw) (symbolOf raw) s) := by
  subst hs
  rw [decodeSvc_eq]
  by_cases h : raw = s.params.sentinel
  · rw [if_pos h, h]
    have hv : rawValid s.params s.params.sentinel = false := by simp [rawValid]
    rw [hv]; rfl
  · rw [if_neg h]
    have hv : rawValid s.params raw = true := by simp [rawValid, h]
    rw [hv]; rfl

end Sys2Proof.Machine
end

