-- ==== Sys2Proof/Laws/Tick.lean ====
section
/-! SUPPORT. What an edge, the settling of the outputs and a step do: they always answer, and their next state by parts. -/

namespace Sys2Proof.Machine

/-- One component's turn, its operation known. -/
theorem runFormats_cons {pre : State} {f : Format} {i : Instr} (h : fetch f pre = .ok i) (fs : List Format) (s : State) :
    runFormats pre (f :: fs) s = andThen (exec i s) (runFormats pre fs) := by
  simp [runFormats, h]

/-- Several instances shift one after another. -/
def shiftAll (p : InPorts) (is : List SyncInst) (s : State) : State :=
  is.foldl (fun s i => shiftSync i (sourceValue p i) s) s

/-- A row of synchronizer components shifts each of them. -/
theorem runFormats_syncs (pre : State) (is : List SyncInst) (s : State) :
    runFormats pre (is.map Format.sync) s = .next (shiftAll pre.inp is s) := by
  induction is generalizing s with
  | nil => rfl
  | cons i is ih => rw [List.map_cons, runFormats_cons (fetch_sync i pre)]; exact ih _

/-- Settling never stops, and changes the output ports only: they show their equations' values. -/
theorem settle_eq (s : State) : settle s = .next (s.setOut (portValues s)) := by
  unfold settle combinational
  rw [runFormats_cons (fetch_svc .slot0 s), exec_decodeSvc, andThen_next, runFormats_cons (fetch_svc .slot1 s),
    exec_decodeSvc, andThen_next, runFormats_cons (fetch_laneStatus s)] <;> rfl

/-- The instances an edge shifts. -/
def edgeSyncs (p : Params) (d : Domain) : List SyncInst := allSyncs.filter fun i => destDomain p i == d

theorem mem_edgeSyncs {p : Params} {d : Domain} {i : SyncInst} : i ∈ edgeSyncs p d ↔ destDomain p i = d := by
  have : i ∈ allSyncs := by cases i <;> decide
  simp [edgeSyncs, this]

theorem nodup_edgeSyncs (p : Params) (d : Domain) : (edgeSyncs p d).Nodup :=
  List.Nodup.filter _ (by decide)

/-- A `tx` edge is its detect operation and its shifts. -/
theorem edge_tx (s : State) :
    edge .tx s =
      andThen (exec (rxdetPick (detRst s) s.det.dstate (s.det.dtimer == 0) (doneS s)) s) fun t =>
        .next (shiftAll s.inp (edgeSyncs s.params .tx) t) := by
  show runFormats s (.rxdet :: (edgeSyncs s.params .tx).map Format.sync) s = _
  rw [runFormats_cons (fetch_rxdet s)]
  congr 1
  funext t
  exact runFormats_syncs s _ t

/-- An `rx` edge is its alignment operation and its shifts. -/
theorem edge_rx (s : State) :
    edge .rx s =
      andThen (exec (alignPick s.inp.platform.rstRx (!s.inp.consumer.alignEnable) s.align.astate (s.align.winCnt == 0)
        (framingMatch s) (s.align.errTmr == errTop s.params)) s) fun t =>
        .next (shiftAll s.inp (edgeSyncs s.params .rx) t) := by
  show runFormats s (.align :: (edgeSyncs s.params .rx).map Format.sync) s = _
  rw [runFormats_cons (fetch_align s)]
  congr 1
  funext t
  exact runFormats_syncs s _ t

/-- An edge of the reference domain or of the consumer's is its shifts. -/
theorem edge_ref (s : State) : edge .ref s = .next (shiftAll s.inp (edgeSyncs s.params .ref) s) :=
  runFormats_syncs s _ s

theorem edge_cons (s : State) : edge .cons s = .next (shiftAll s.inp (edgeSyncs s.params .cons) s) :=
  runFormats_syncs s _ s

/-! ### Shifts by parts -/

@[simp] theorem shiftAll_nil (p : InPorts) (s : State) : shiftAll p [] s = s := rfl
@[simp] theorem shiftAll_cons (p : InPorts) (i : SyncInst) (is : List SyncInst) (s : State) :
    shiftAll p (i :: is) s = shiftAll p is (shiftSync i (sourceValue p i) s) := rfl

/-- Shifts write only synchronizer registers and the draw counter. -/
theorem shiftAll_eq (p : InPorts) (is : List SyncInst) (s : State) :
    ∃ v n, shiftAll p is s = { s with sync := v, draws := n } := by
  induction is generalizing s with
  | nil => exact ⟨s.sync, s.draws, rfl⟩
  | cons i is ih =>
    obtain ⟨v, n, h⟩ := ih (shiftSync i (sourceValue p i) s)
    exact ⟨v, n, by rw [shiftAll_cons, h]; rfl⟩

@[simp] theorem shiftAll_params (p : InPorts) (is : List SyncInst) (s : State) : (shiftAll p is s).params = s.params := by
  obtain ⟨_, _, h⟩ := shiftAll_eq p is s; rw [h]
@[simp] theorem shiftAll_det (p : InPorts) (is : List SyncInst) (s : State) : (shiftAll p is s).det = s.det := by
  obtain ⟨_, _, h⟩ := shiftAll_eq p is s; rw [h]
@[simp] theorem shiftAll_align (p : InPorts) (is : List SyncInst) (s : State) : (shiftAll p is s).align = s.align := by
  obtain ⟨_, _, h⟩ := shiftAll_eq p is s; rw [h]
@[simp] theorem shiftAll_ghost (p : InPorts) (is : List SyncInst) (s : State) : (shiftAll p is s).ghost = s.ghost := by
  obtain ⟨_, _, h⟩ := shiftAll_eq p is s; rw [h]
@[simp] theorem shiftAll_inp (p : InPorts) (is : List SyncInst) (s : State) : (shiftAll p is s).inp = s.inp := by
  obtain ⟨_, _, h⟩ := shiftAll_eq p is s; rw [h]
@[simp] theorem shiftAll_out (p : InPorts) (is : List SyncInst) (s : State) : (shiftAll p is s).out = s.out := by
  obtain ⟨_, _, h⟩ := shiftAll_eq p is s; rw [h]
@[simp] theorem shiftAll_pending (p : InPorts) (is : List SyncInst) (s : State) :
    (shiftAll p is s).pending = s.pending := by
  obtain ⟨_, _, h⟩ := shiftAll_eq p is s; rw [h]

/-- An instance that is not shifted keeps its registers. -/
theorem syncGet_shiftAll_of_not_mem {p : InPorts} {is : List SyncInst} {j : SyncInst} (h : j ∉ is) (s : State) :
    syncGet (shiftAll p is s).sync j = syncGet s.sync j := by
  induction is generalizing s with
  | nil => rfl
  | cons i is ih =>
    rw [List.mem_cons, not_or] at h
    rw [shiftAll_cons, ih h.2]
    show syncGet (syncSet s.sync i _) j = _
    rw [syncGet_syncSet, if_neg h.1]

/-- An instance that is shifted once takes one shift of its own registers. -/
theorem syncGet_shiftAll_of_mem {p : InPorts} {is : List SyncInst} (hn : is.Nodup) {j : SyncInst} (h : j ∈ is)
    (s : State) :
    ∃ free, syncGet (shiftAll p is s).sync j = shiftRegs s.params (syncGet s.sync j) (sourceValue p j) free := by
  induction is generalizing s with
  | nil => cases h
  | cons i is ih =>
    rw [List.nodup_cons] at hn
    rw [shiftAll_cons]
    by_cases hj : j = i
    · subst hj
      rw [syncGet_shiftAll_of_not_mem hn.1]
      refine ⟨Config.freeBit s.draws, ?_⟩
      show syncGet (syncSet s.sync j _) j = _
      rw [syncGet_syncSet, if_pos rfl]
    · obtain ⟨free, hf⟩ := ih hn.2 ((List.mem_cons.mp h).resolve_left hj) (shiftSync i (sourceValue p i) s)
      refine ⟨free, ?_⟩
      rw [hf]
      show shiftRegs s.params (syncGet (syncSet s.sync i _) j) _ _ = _
      rw [syncGet_syncSet, if_neg hj]

/-! ### One step -/

/-- A step of an agent that is no edge changes its input ports, and the outputs follow. -/
theorem react_drive {e : Event} (h : isDrive e = true) (s : State) :
    react e s = settle (s.setInp (present e s.inp)) := by
  cases e with
  | tick d => cases h
  | transceiver p => rfl
  | consumer p => rfl
  | platform p => rfl

theorem react_tick (d : Domain) (s : State) : react (.tick d) s = andThen (edge d s) settle := rfl

/-- An observation of `det_status` changes the draw counter only (U1). -/
theorem observeDetStatus_eq (s : State) : ∃ n, (observeDetStatus s).2 = s.setDraws n := by
  unfold observeDetStatus
  split
  · exact ⟨s.draws, rfl⟩
  · exact ⟨s.draws + 1, rfl⟩

/-- Two observations before DONE are two draws (assumption 5). -/
theorem observeDetStatus_twice {s : State} (h : detValidFlag s = false) :
    (observeDetStatus s).1 = Config.freeStatus s.draws ∧
      (observeDetStatus (observeDetStatus s).2).1 = Config.freeStatus (s.draws + 1) := by
  have h' : detValidFlag (s.setDraws (s.draws + 1)) = false := h
  simp [observeDetStatus, observedDetStatus, h, h']

end Sys2Proof.Machine
end

