-- ==== Sys2Proof/Laws/Edge.lean ====
section
/-! SUPPORT. An agent's step by parts: what becomes of each part of the state, whatever the step is. -/

namespace Sys2Proof.Machine

/-! ### The operations an edge selects, as the state tables -/

/-- The detect operation a selector picks does what the detect table says (R101 to R114). -/
theorem exec_rxdetPick (s : State) (rst done : Bool) :
    exec (rxdetPick rst s.det.dstate (s.det.dtimer == 0) done) s =
      .next (s.setDet (detNext s.params rst done (conS s) s.det)) := by
  rcases s with ⟨p, sy, ⟨d, tm, en, ct, st⟩, a, g, i, o, pe, dr⟩
  by_cases hz : tm = 0
  · subst hz
    cases rst <;> cases d <;> cases done <;> rfl
  · have hz' : (tm == 0) = false := beq_eq_false_iff_ne.mpr hz
    cases rst <;> cases d <;> cases done <;> simp only [rxdetPick, detNext, hz', if_neg hz] <;> rfl

/-- The alignment operation a selector picks does what the alignment table says (R120 to R129), and the ghosts count the
level changes. -/
theorem exec_alignPick (s : State) (rst enable m : Bool) :
    exec (alignPick rst (!enable) s.align.astate (s.align.winCnt == 0) m (s.align.errTmr == errTop s.params)) s =
      .next { s with
        align := alignNext s.params rst enable m s.align
        ghost := ghostNext s.align (alignNext s.params rst enable m s.align) s.ghost } := by
  rcases s with ⟨p, sy, d, ⟨ast, w, e, sl, iv⟩, g, i, o, pe, dr⟩
  cases rst
  · cases enable
    · simp [alignPick, alignNext, exec, execAlignDisable, restartSearch, State.setAlign, ghostNext]
    · cases ast
      · by_cases hw : w = 0 <;> by_cases he : e = errTop p <;> cases m <;> cases sl <;> cases iv <;>
          simp_all [alignPick, alignNext, exec, ghostNext, errTop, execAlignMatch, execAlignMiss, execAlignMissOvf,
            execAlignCount, execAlignOvf, advanceErr, advanceWindow, clearErr, enterLocked, toggleSlip, toggleInvert,
            driveSlip, driveInvert, State.setAlign]
      · simp [alignPick, alignNext, exec, execAlignLockedHold, clearErr, advanceWindow, State.setAlign, ghostNext]
  · cases sl <;> cases iv <;>
      simp [alignPick, alignNext, exec, execAlignReset, restartSearch, driveSlip_eq, driveInvert_eq, State.setAlign,
        ghostNext]

/-! ### An edge -/

/-- What an edge's controller does before its domain's instances shift. -/
def controlled (d : Domain) (s : State) : State :=
  match d with
  | .tx => s.setDet (detNext s.params (detRst s) (doneS s) (conS s) s.det)
  | .rx =>
    let a := alignNext s.params s.inp.platform.rstRx s.inp.consumer.alignEnable (framingMatch s) s.align
    { s with align := a, ghost := ghostNext s.align a s.ghost }
  | .ref => s
  | .cons => s

/-- An edge always answers: its controller's table, then the shifts of the instances it clocks. -/
theorem edge_eq (d : Domain) (s : State) :
    edge d s = .next (shiftAll s.inp (edgeSyncs s.params d) (controlled d s)) := by
  cases d with
  | ref => exact edge_ref s
  | cons => exact edge_cons s
  | tx => rw [edge_tx, exec_rxdetPick, andThen_next]; rfl
  | rx => rw [edge_rx, exec_alignPick, andThen_next]; rfl

theorem controlled_params (d : Domain) (s : State) : (controlled d s).params = s.params := by cases d <;> rfl
theorem controlled_sync (d : Domain) (s : State) : (controlled d s).sync = s.sync := by cases d <;> rfl
theorem controlled_inp (d : Domain) (s : State) : (controlled d s).inp = s.inp := by cases d <;> rfl
theorem controlled_pending (d : Domain) (s : State) : (controlled d s).pending = s.pending := by cases d <;> rfl

/-- The state an edge leads to. -/
theorem react_tick_eq (d : Domain) (s : State) :
    ∃ t, react (.tick d) s = .next (t.setOut (portValues t)) ∧
      t = shiftAll s.inp (edgeSyncs s.params d) (controlled d s) :=
  ⟨_, by rw [react_tick, edge_eq, andThen_next, settle_eq], rfl⟩

/-- The state a change of the input ports leads to. -/
theorem react_drive_eq {e : Event} (he : isDrive e = true) (s : State) :
    react e s = .next ((s.setInp (present e s.inp)).setOut (portValues (s.setInp (present e s.inp)))) := by
  rw [react_drive he, settle_eq]

/-! ### An agent's step, part by part -/

/-- A step of an agent always answers. -/
theorem react_answers (e : Event) (s : State) : ∃ t, react e s = .next t := by
  cases e with
  | tick d => obtain ⟨t, h, -⟩ := react_tick_eq d s; exact ⟨_, h⟩
  | transceiver p => exact ⟨_, react_drive_eq rfl s⟩
  | consumer p => exact ⟨_, react_drive_eq rfl s⟩
  | platform p => exact ⟨_, react_drive_eq rfl s⟩

/-- Steps of agents one after another always answer. -/
theorem runEvents_answers (es : List Event) (s : State) : ∃ t, runEvents es s = .next t := by
  induction es generalizing s with
  | nil => exact ⟨s, rfl⟩
  | cons e es ih =>
    obtain ⟨t, h⟩ := react_answers e s
    obtain ⟨t', h'⟩ := ih t
    exact ⟨t', by simp only [runEvents, h, andThen_next]; exact h'⟩

/-- A run's first step and the rest of it. -/
theorem runEvents_cons {e : Event} {es : List Event} {s t : State} (h : runEvents (e :: es) s = .next t) :
    ∃ t', react e s = .next t' ∧ runEvents es t' = .next t :=
  andThen_eq_next h

/-- The input ports present what the step presents; parameters and pending steps stay. -/
theorem react_inp {e : Event} {s t : State} (h : react e s = .next t) :
    t.inp = present e s.inp ∧ t.params = s.params ∧ t.pending = s.pending := by
  cases e with
  | tick d =>
    obtain ⟨t', ht, rfl⟩ := react_tick_eq d s
    rw [ht] at h
    cases h
    simp [controlled_inp, controlled_params, controlled_pending, present]
  | transceiver p => rw [react_drive_eq rfl] at h; cases h; simp
  | consumer p => rw [react_drive_eq rfl] at h; cases h; simp
  | platform p => rw [react_drive_eq rfl] at h; cases h; simp

/-- The detect registers change at a `tx` edge only, and there as the detect table says. -/
theorem react_det {e : Event} {s t : State} (h : react e s = .next t) :
    t.det = if e = .tick .tx then detNext s.params (detRst s) (doneS s) (conS s) s.det else s.det := by
  cases e with
  | tick d =>
    obtain ⟨t', ht, rfl⟩ := react_tick_eq d s
    rw [ht] at h
    cases h
    cases d <;> simp [controlled]
  | transceiver p => rw [react_drive_eq rfl] at h; cases h; simp
  | consumer p => rw [react_drive_eq rfl] at h; cases h; simp
  | platform p => rw [react_drive_eq rfl] at h; cases h; simp

/-- The alignment registers change at an `rx` edge only, and there as the alignment table says; the ghosts follow. -/
theorem react_align {e : Event} {s t : State} (h : react e s = .next t) :
    (t.align = if e = .tick .rx then
      alignNext s.params s.inp.platform.rstRx s.inp.consumer.alignEnable (framingMatch s) s.align else s.align) ∧
    t.ghost = ghostNext s.align t.align s.ghost := by
  cases e with
  | tick d =>
    obtain ⟨t', ht, rfl⟩ := react_tick_eq d s
    rw [ht] at h
    cases h
    cases d <;> simp [controlled, ghostNext]
  | transceiver p => rw [react_drive_eq rfl] at h; cases h; simp [ghostNext]
  | consumer p => rw [react_drive_eq rfl] at h; cases h; simp [ghostNext]
  | platform p => rw [react_drive_eq rfl] at h; cases h; simp [ghostNext]

/-- An instance shifts once at an edge of its domain, and keeps its registers at every other step. -/
theorem react_sync {e : Event} {s t : State} (h : react e s = .next t) (i : SyncInst) :
    (e = .tick (destDomain s.params i) →
      ∃ free, syncGet t.sync i = shiftRegs s.params (syncGet s.sync i) (sourceValue s.inp i) free) ∧
    (e ≠ .tick (destDomain s.params i) → syncGet t.sync i = syncGet s.sync i) := by
  cases e with
  | tick d =>
    obtain ⟨t', ht, rfl⟩ := react_tick_eq d s
    rw [ht] at h
    cases h
    constructor
    · intro hd
      obtain ⟨free, hf⟩ := syncGet_shiftAll_of_mem (p := s.inp) (nodup_edgeSyncs s.params d)
        (mem_edgeSyncs.mpr (Event.tick.inj hd).symm) (controlled d s)
      rw [controlled_params, controlled_sync] at hf
      exact ⟨free, hf⟩
    · intro hd
      have hm : i ∉ edgeSyncs s.params d := fun hm => hd (by rw [mem_edgeSyncs.mp hm])
      have hn := syncGet_shiftAll_of_not_mem (p := s.inp) hm (controlled d s)
      rw [controlled_sync] at hn
      exact hn
  | transceiver p => rw [react_drive_eq rfl] at h; cases h; exact ⟨nofun, fun _ => rfl⟩
  | consumer p => rw [react_drive_eq rfl] at h; cases h; exact ⟨nofun, fun _ => rfl⟩
  | platform p => rw [react_drive_eq rfl] at h; cases h; exact ⟨nofun, fun _ => rfl⟩

/-- After a step the output ports show their equations' values. -/
theorem react_out {e : Event} {s t : State} (h : react e s = .next t) : t.out = portValues t := by
  cases e with
  | tick d =>
    obtain ⟨t', ht, -⟩ := react_tick_eq d s
    rw [ht] at h
    cases h
    rfl
  | transceiver p => rw [react_drive_eq rfl] at h; cases h; rfl
  | consumer p => rw [react_drive_eq rfl] at h; cases h; rfl
  | platform p => rw [react_drive_eq rfl] at h; cases h; rfl

end Sys2Proof.Machine
end

