-- ==== Sys2Proof/Laws/PerInstr.lean ====
section
/-! SUPPORT. Statements about every operation, one lemma per constructor: the encoder's word fits its format's width. -/

namespace Sys2Proof.Laws.EncodedFits

/-- The encoder's word has no bit above its format's width. -/
def Statement (i : Instr) : Prop :=
  ∀ sentinel : RawWord, (encode sentinel i).bits < 2 ^ formatWidth (encode sentinel i).format

theorem syncShift (inst : SyncInst) (v : Bool) : Statement (.syncShift inst v) := by
  cases v <;> simp [Statement, encode, formatWidth]

theorem svcInvalid (slot : Slot) : Statement (.svcInvalid slot) := fun sentinel => by
  simpa [encode, formatWidth] using sentinel.isLt

theorem svcValid (slot : Slot) (raw : RawWord) : Statement (.svcValid slot raw) := by
  simpa [Statement, encode, formatWidth] using raw.isLt

theorem rxdetReset : Statement .rxdetReset := by simp [Statement, encode, formatWidth]
theorem rxdetStartCount : Statement .rxdetStartCount := by simp [Statement, encode, formatWidth]
theorem rxdetStartExit : Statement .rxdetStartExit := by simp [Statement, encode, formatWidth]
theorem rxdetSdhCount : Statement .rxdetSdhCount := by simp [Statement, encode, formatWidth]
theorem rxdetSdhExit : Statement .rxdetSdhExit := by simp [Statement, encode, formatWidth]
theorem rxdetSshCount : Statement .rxdetSshCount := by simp [Statement, encode, formatWidth]
theorem rxdetSshExit : Statement .rxdetSshExit := by simp [Statement, encode, formatWidth]
theorem rxdetSsl : Statement .rxdetSsl := by simp [Statement, encode, formatWidth]
theorem rxdetWdlWait : Statement .rxdetWdlWait := by simp [Statement, encode, formatWidth]
theorem rxdetWdlExit : Statement .rxdetWdlExit := by simp [Statement, encode, formatWidth]
theorem rxdetWdhWait : Statement .rxdetWdhWait := by simp [Statement, encode, formatWidth]
theorem rxdetWdhExit : Statement .rxdetWdhExit := by simp [Statement, encode, formatWidth]
theorem rxdetDoneHold : Statement .rxdetDoneHold := by simp [Statement, encode, formatWidth]
theorem alignReset : Statement .alignReset := by simp [Statement, encode, formatWidth]
theorem alignDisable : Statement .alignDisable := by simp [Statement, encode, formatWidth]
theorem alignLockedHold : Statement .alignLockedHold := by simp [Statement, encode, formatWidth]
theorem alignMatch : Statement .alignMatch := by simp [Statement, encode, formatWidth]
theorem alignMiss : Statement .alignMiss := by simp [Statement, encode, formatWidth]
theorem alignMissOvf : Statement .alignMissOvf := by simp [Statement, encode, formatWidth]
theorem alignCount : Statement .alignCount := by simp [Statement, encode, formatWidth]
theorem alignOvf : Statement .alignOvf := by simp [Statement, encode, formatWidth]
theorem laneStatus : Statement .laneStatus := by simp [Statement, encode, formatWidth]
theorem laneControl : Statement .laneControl := by simp [Statement, encode, formatWidth]

end Sys2Proof.Laws.EncodedFits
end

