-- ==== Sys2Proof/Tests/Slice0.lean ====
section
/-! SUPPORT. Small tests, their expected results from spec/95_test_vectors.md, spec/opcode_table.json or the rule each
names, and a witness for the hypotheses of every statement that has some. -/

namespace Sys2Proof.Tests

open Sys2Proof Sys2Proof.Machine

/-- The next state an outcome holds. -/
def nextOf : Result → Option State
  | .next t => some t
  | .fault _ => none
  | .refused _ => none

/-- The next state an outcome holds, the state after reset where it holds none. -/
def after (o : Result) : State := (nextOf o).getD State.reset

theorem eq_next_after {o : Result} (h : (nextOf o).isSome = true) : o = .next (after o) := by
  cases o with
  | next t => rfl
  | fault r => cases h
  | refused r => cases h

/-- The state after reset with one agent's step pending. -/
def pend (e : Event) (s : State) : State := s.setPending [e]

/-- The control inputs, every other input 0: `rst_tx`, `det_enable`, `rst_rx`, `align_enable`, and the two raw words. -/
def inputs (rstTx detEnable rstRx alignEnable : Bool) (raw0 raw1 : RawWord) : InPorts where
  xcvr := { InPorts.zero.xcvr with rxRaw := ⟨raw0, raw1⟩ }
  consumer := { InPorts.zero.consumer with detEnable := detEnable, alignEnable := alignEnable }
  platform := ⟨rstTx, rstRx⟩

/-- A state about to take a `tx` edge: the detect registers, `done_s` and `con_s`, `rst_tx` and `det_enable`. -/
def txState (r : DetRegs) (done con rst enable : Bool) : State :=
  pend (.tick .tx)
    { State.reset with
      det := r
      sync := { Syncs.zero with done := ⟨done, done, false⟩, con := ⟨con, con, false⟩ }
      inp := inputs rst enable false false 0 0 }

/-- A state about to take an `rx` edge: the alignment registers, `rst_rx`, `align_enable` and the raw words. -/
def rxState (r : AlignRegs) (rst enable : Bool) (raw0 raw1 : RawWord) : State :=
  pend (.tick .rx) { State.reset with align := r, inp := inputs false false rst enable raw0 raw1 }

/-- The detect registers and `det_valid` after one step. -/
def detAfter (s : State) : DetRegs × Bool := ((after (step s)).det, (after (step s)).out.detValid)

/-- The alignment registers and the ghosts after one step. -/
def alignAfter (s : State) : AlignRegs × Ghost := ((after (step s)).align, (after (step s)).ghost)

/-! ### Well-formedness: one ill-formed term per check -/

theorem test_wf_sentinel_is_not_valid : (Instr.svcValid .slot1 0x1EE).wf 0x1EE = false := by decide
theorem test_wf_other_word_is_valid : (Instr.svcValid .slot1 0x3EE).wf 0x1EE = true := by decide
theorem test_wf_start_symbol_not_sentinel : Params.wf { Config.hardware with startSym := 0x1EE } = false := by decide
theorem test_wf_comma_symbol_not_sentinel : Params.wf { Config.hardware with commaSym := 0x1EE } = false := by decide
theorem test_wf_window_has_a_bit : Params.wf { Config.hardware with alignWinBits := 0 } = false := by decide
theorem test_wf_error_timer_has_a_bit : Params.wf { Config.hardware with alignErrBits := 0 } = false := by decide
theorem test_wf_hardware : Config.hardware.wf = true := by decide
theorem test_wf_line_ref : (Line.step .ref [] 1).wf = false := by decide
theorem test_wf_line_other_domain : (Line.step .tx [.port .rstRx (.num 1)] 1).wf = false := by decide
theorem test_wf_line_raw_words : (Line.step .cons [.rxRaw .draw .draw] 1).wf = false := by decide
theorem test_wf_line : (Line.step .rx [.port .alignEnable (.num 1), patternWords] 513).wf = true := by decide

/-- The "value" column of R8. -/
theorem test_hardware_parameters :
    Config.hardware = { sentinel := 0x1EE, startSym := 0x1FB, commaSym := 0x1BC, syncMeta := false, detHoldLoad := 15,
                        detStrobeLoad := 3, alignWinBits := 8, alignErrBits := 16, tickNs := 8, consDomain := .cons } := by
  decide

/-! ### Words -/

/-- The decoder with this hardware's sentinel, spelled out from R8. -/
def dec (sel : SelWord) : Except Reject Instr := decode 0x1EE sel

/-- `RXDET_SEL`, bits `R S S S Z D`: the words of V-RXD-1 and V-RXD-3 to V-RXD-15. -/
theorem test_words_rxdet :
    dec ⟨.rxdet, 0b101000⟩ = .ok .rxdetReset ∧ dec ⟨.rxdet, 0b000000⟩ = .ok .rxdetStartCount ∧
    dec ⟨.rxdet, 0b000011⟩ = .ok .rxdetStartExit ∧ dec ⟨.rxdet, 0b000101⟩ = .ok .rxdetSdhCount ∧
    dec ⟨.rxdet, 0b000110⟩ = .ok .rxdetSdhExit ∧ dec ⟨.rxdet, 0b001000⟩ = .ok .rxdetSshCount ∧
    dec ⟨.rxdet, 0b001011⟩ = .ok .rxdetSshExit ∧ dec ⟨.rxdet, 0b001111⟩ = .ok .rxdetSsl ∧
    dec ⟨.rxdet, 0b010011⟩ = .ok .rxdetWdlWait ∧ dec ⟨.rxdet, 0b010010⟩ = .ok .rxdetWdlExit ∧
    dec ⟨.rxdet, 0b010110⟩ = .ok .rxdetWdhWait ∧ dec ⟨.rxdet, 0b010111⟩ = .ok .rxdetWdhExit ∧
    dec ⟨.rxdet, 0b011010⟩ = .ok .rxdetDoneHold := by decide

/-- `ALIGN_SEL`, bits `X N A W M O`: the words of V-ALN-1 to V-ALN-14. -/
theorem test_words_align :
    dec ⟨.align, 0b101000⟩ = .ok .alignReset ∧ dec ⟨.align, 0b011000⟩ = .ok .alignDisable ∧
    dec ⟨.align, 0b001000⟩ = .ok .alignLockedHold ∧ dec ⟨.align, 0b000111⟩ = .ok .alignMatch ∧
    dec ⟨.align, 0b000100⟩ = .ok .alignMiss ∧ dec ⟨.align, 0b000101⟩ = .ok .alignMissOvf ∧
    dec ⟨.align, 0b000010⟩ = .ok .alignCount ∧ dec ⟨.align, 0b000001⟩ = .ok .alignOvf := by decide

/-- `SVC_SEL`, bits `marker K data`: V-SVC-1, V-SVC-2, V-SVC-3. -/
theorem test_words_svc :
    dec ⟨.svc .slot0, 0b0111101110⟩ = .ok (.svcInvalid .slot0) ∧
    dec ⟨.svc .slot1, 0b1111101110⟩ = .ok (.svcValid .slot1 0x3EE) ∧
    dec ⟨.svc .slot0, 0b0011101110⟩ = .ok (.svcValid .slot0 0x0EE) := by decide

/-- `SYNC_SEL` has one row and `LANE_SEL` no bits (R74 (b), (c)). -/
theorem test_words_sync_lane :
    dec ⟨.sync .los, 0b0⟩ = .ok (.syncShift .los false) ∧ dec ⟨.sync .con, 0b1⟩ = .ok (.syncShift .con true) ∧
    dec ⟨.laneStatus, 0⟩ = .ok .laneStatus ∧ dec ⟨.laneControl, 0⟩ = .ok .laneControl := by decide

/-- R75 (a), V-RXD-17: `0111zd` is refused by name; a bit above the format's width too. -/
theorem test_words_refused :
    dec ⟨.rxdet, 0b011100⟩ = .error .reservedDetectCode ∧ dec ⟨.rxdet, 0b011111⟩ = .error .reservedDetectCode ∧
    dec ⟨.rxdet, 0b1000000⟩ = .error .tooWide ∧ dec ⟨.laneStatus, 1⟩ = .error .tooWide := by decide

/-- The rows of each selector table are pairwise disjoint (R71, R73). -/
theorem test_rows_disjoint :
    rxdetRows.Pairwise (fun r₁ r₂ => ∀ w : BitVec 6, ¬(rowSelects w r₁ = true ∧ rowSelects w r₂ = true)) ∧
    alignRows.Pairwise (fun r₁ r₂ => ∀ w : BitVec 6, ¬(rowSelects w r₁ = true ∧ rowSelects w r₂ = true)) := by decide

/-- The encoder gives each row's `match` of spec/opcode_table.json. -/
theorem test_encode_is_match :
    (encode 0x1EE .rxdetReset).bits = 0x20 ∧ (encode 0x1EE .rxdetWdlWait).bits = 0x11 ∧ (encode 0x1EE .rxdetDoneHold).bits = 0x18 ∧
    (encode 0x1EE .alignDisable).bits = 0x10 ∧ (encode 0x1EE .alignMatch).bits = 0x06 ∧ (encode 0x1EE .alignOvf).bits = 0x01 ∧
    (encode 0x1EE (.svcInvalid .slot1)).bits = 0x1EE := by decide

/-- A number names its format in its third byte; a bare number is read by its width (assumption 2). -/
theorem test_table_words :
    decodeTableWord 24 0x010016 = some .rxdetWdhWait ∧ decodeTableWord 24 0x020006 = some .alignMatch ∧
    decodeTableWord 24 0x0803FF = none ∧ decodeTableWord 8 0x06 = some .rxdetSdhExit ∧
    decodeTableWord 16 0x1EE = some (.svcInvalid .slot0) ∧ decodeTableWord 8 0x1C = none := by decide

/-- A placed word is run by the coming step: RXDET_START_EXIT and ALIGN_OVF from reset. -/
theorem test_placed_word_runs :
    (after (step (State.reset.withFetchWord 8 0x02))).det.dstate = .setDetectH ∧
    (after (step (State.reset.withFetchWord 24 0x020001))).align = ⟨.search, 2, 0, false, true⟩ := by decide

/-! ### Operations, one step each (95_test_vectors.md Part 2) -/

/-- V-RXD-1. -/
theorem test_rxdet_reset_abandons_strobe : detAfter (txState ⟨.setStrobeH, 1, true, true, false⟩ false false false false) = (⟨.start, 15, false, false, false⟩, false) := by decide

/-- V-RXD-16. -/
theorem test_rxdet_reset_keeps_status : detAfter (txState ⟨.done, 0, true, false, true⟩ true true false false) = (⟨.start, 15, false, false, true⟩, false) := by decide

/-- V-RXD-3. -/
theorem test_rxdet_start_count : detAfter (txState ⟨.start, 15, false, false, false⟩ false false false true) = (⟨.start, 14, false, false, false⟩, false) := by decide

/-- V-RXD-4. -/
theorem test_rxdet_start_exit : detAfter (txState ⟨.start, 0, false, false, false⟩ true false false true) = (⟨.setDetectH, 15, true, false, false⟩, false) := by decide

/-- V-RXD-5. -/
theorem test_rxdet_sdh_count : detAfter (txState ⟨.setDetectH, 3, true, false, false⟩ true true false true) = (⟨.setDetectH, 2, true, false, false⟩, false) := by decide

/-- V-RXD-6. -/
theorem test_rxdet_sdh_exit : detAfter (txState ⟨.setDetectH, 0, true, false, false⟩ false false false true) = (⟨.setStrobeH, 3, true, true, false⟩, false) := by decide

/-- V-RXD-7. -/
theorem test_rxdet_ssh_count : detAfter (txState ⟨.setStrobeH, 3, true, true, false⟩ false false false true) = (⟨.setStrobeH, 2, true, true, false⟩, false) := by decide

/-- V-RXD-8. -/
theorem test_rxdet_ssh_exit : detAfter (txState ⟨.setStrobeH, 0, true, true, false⟩ true false false true) = (⟨.setStrobeL, 0, true, false, false⟩, false) := by decide

/-- V-RXD-9. -/
theorem test_rxdet_ssl : detAfter (txState ⟨.setStrobeL, 0, true, false, false⟩ true false false true) = (⟨.waitDoneL, 0, true, false, false⟩, false) := by decide

/-- V-RXD-10. -/
theorem test_rxdet_wdl_wait : detAfter (txState ⟨.waitDoneL, 0, true, false, false⟩ true false false true) = (⟨.waitDoneL, 0, true, false, false⟩, false) := by decide

/-- V-RXD-11. -/
theorem test_rxdet_wdl_exit : detAfter (txState ⟨.waitDoneL, 0, true, false, false⟩ false false false true) = (⟨.waitDoneH, 0, true, false, false⟩, false) := by decide

/-- V-RXD-12. -/
theorem test_rxdet_wdh_wait : detAfter (txState ⟨.waitDoneH, 0, true, false, false⟩ false true false true) = (⟨.waitDoneH, 0, true, false, false⟩, false) := by decide

/-- V-RXD-13. -/
theorem test_rxdet_wdh_exit_present : detAfter (txState ⟨.waitDoneH, 0, true, false, false⟩ true true false true) = (⟨.done, 0, true, false, true⟩, true) := by decide

/-- V-RXD-14. -/
theorem test_rxdet_wdh_exit_absent : detAfter (txState ⟨.waitDoneH, 0, true, false, true⟩ true false false true) = (⟨.done, 0, true, false, false⟩, true) := by decide

/-- V-RXD-15. -/
theorem test_rxdet_done_hold : detAfter (txState ⟨.done, 0, true, false, true⟩ false false false true) = (⟨.done, 0, true, false, true⟩, true) := by decide

/-- V-ALN-1. -/
theorem test_align_reset_invert_falls : alignAfter (rxState ⟨.locked, 2, 0, false, true⟩ true true 0 0) = (⟨.search, 0, 0, false, false⟩, ⟨0, 1⟩) := by decide

/-- V-ALN-2. -/
theorem test_align_reset_slip_falls : alignAfter (rxState ⟨.locked, 2, 0, true, false⟩ true true 0 0) = (⟨.search, 0, 0, false, false⟩, ⟨1, 0⟩) := by decide

/-- V-ALN-3. -/
theorem test_align_disable : alignAfter (rxState ⟨.locked, 1, 0, true, false⟩ false false 0 0) = (⟨.search, 0, 0, true, false⟩, ⟨0, 0⟩) := by decide

/-- V-ALN-4. -/
theorem test_align_locked_hold_wraps : alignAfter (rxState ⟨.locked, 255, 0, true, false⟩ false true 0 0) = (⟨.locked, 0, 0, true, false⟩, ⟨0, 0⟩) := by decide

/-- V-ALN-6. -/
theorem test_align_match_ignores_marker : alignAfter (rxState ⟨.search, 0, 0, true, false⟩ false true 0x3FB 0x3BC) = (⟨.locked, 1, 0, true, false⟩, ⟨0, 0⟩) := by decide

/-- V-ALN-11. -/
theorem test_align_match_wins : alignAfter (rxState ⟨.search, 0, 0xFFFF, false, false⟩ false true 0x1FB 0x1BC) = (⟨.locked, 1, 0, false, false⟩, ⟨0, 0⟩) := by decide

/-- V-ALN-7. -/
theorem test_align_miss : alignAfter (rxState ⟨.search, 0, 256, true, false⟩ false true 0 0) = (⟨.search, 1, 257, false, false⟩, ⟨1, 0⟩) := by decide

/-- V-ALN-8. -/
theorem test_align_miss_wrong_slots : alignAfter (rxState ⟨.search, 0, 0, false, false⟩ false true 0x1BC 0x1FB) = (⟨.search, 1, 1, true, false⟩, ⟨1, 0⟩) := by decide

/-- V-ALN-10. -/
theorem test_align_miss_ovf : alignAfter (rxState ⟨.search, 0, 0xFFFF, false, false⟩ false true 0 0) = (⟨.search, 1, 0, true, true⟩, ⟨1, 1⟩) := by decide

/-- V-ALN-13. -/
theorem test_align_count_off_window : alignAfter (rxState ⟨.search, 1, 1, true, false⟩ false true 0x1FB 0x1BC) = (⟨.search, 2, 2, true, false⟩, ⟨0, 0⟩) := by decide

/-- V-ALN-15. -/
theorem test_align_count_wraps : alignAfter (rxState ⟨.search, 255, 255, true, false⟩ false true 0 0) = (⟨.search, 0, 256, true, false⟩, ⟨0, 0⟩) := by decide

/-- V-ALN-14. -/
theorem test_align_ovf : alignAfter (rxState ⟨.search, 255, 0xFFFF, false, false⟩ false true 0 0) = (⟨.search, 0, 0, false, true⟩, ⟨0, 1⟩) := by decide

/-- V-SYNC-2: the first edge of a rise is not yet seen. -/
theorem test_sync_shift_first_edge :
    (after (exec (.syncShift .lss true) State.reset)).sync.lss = ⟨true, false, false⟩ := by decide

/-- V-SYNC-4: a one-edge pulse reaches `q2` one edge late; here of `S_con`, whose source is `detect_result`. -/
theorem test_sync_shift_pulse :
    (after (step (pend (.tick .tx) { State.reset with
      sync := { Syncs.zero with con := ⟨true, false, false⟩, los := ⟨true, false, false⟩ } }))).sync =
      { Syncs.zero with con := ⟨false, true, false⟩, los := ⟨true, false, false⟩ } := by decide

/-- V-SVC-1 and the slot independence of R94: slot 0 holds the sentinel, slot 1 COM. -/
theorem test_svc_invalid_one_slot :
    let o := (after (step (pend (.transceiver { InPorts.zero.xcvr with rxRaw := ⟨0x1EE, 0x1BC⟩ }) State.reset))).out
    o.rxValid = ⟨false, true⟩ ∧ o.symbol = ⟨0x1EE, 0x1BC⟩ := by decide

/-- V-SVC-2 and V-SVC-8: the marker bit makes the words valid and is dropped. -/
theorem test_svc_valid_marker :
    let o := (after (step (pend (.transceiver { InPorts.zero.xcvr with rxRaw := ⟨0x3EE, 0x2EE⟩ }) State.reset))).out
    o.rxValid = ⟨true, true⟩ ∧ o.symbol = ⟨0x1EE, 0x0EE⟩ := by decide

/-- V-LANE-3: an ungated state. -/
theorem test_lane_status_ungated :
    let o := (after (exec .laneStatus { State.reset with
      sync := ⟨⟨false, true, false⟩, ⟨false, true, false⟩, ⟨false, true, false⟩, .zero, .zero⟩
      det := ⟨.waitDoneH, 0, true, false, false⟩ })).out
    o.present = false ∧ o.locked = false ∧ o.aligned = true ∧ o.detValid = false := by decide

/-- The LANE_CONTROL vector. -/
theorem test_lane_control_forwards :
    let o := (after (exec .laneControl { State.reset with
      det := ⟨.setDetectH, 0, true, false, false⟩, align := ⟨.search, 0, 0, true, false⟩
      inp := { InPorts.zero with consumer := ⟨true, false, ⟨0x1BC, 0x0B5⟩⟩ } })).out
    o.slip = true ∧ o.invert = false ∧ o.pcieDetEn = true ∧ o.pcieCt = false ∧ o.txSymbolOut = ⟨0x1BC, 0x0B5⟩ := by
  decide

/-- Other widths and another sentinel than this hardware's: a 2-bit window counter and a 3-bit error timer wrap at 4 and 8,
and the checker rejects 0x0EE alone (R7, U16). -/
theorem test_other_parameters :
    let p := { Config.hardware with sentinel := 0x0EE, alignWinBits := 2, alignErrBits := 3 }
    let s := { rxState ⟨.search, 3, 7, false, false⟩ false true 0x0EE 0x1EE with params := p }
    let t := after (step s)
    t.align = ⟨.search, 0, 0, false, true⟩ ∧ t.out.rxValid = ⟨false, true⟩ := by decide

/-- R77's examples: `TXIN` = 0x4, and `RXIN` = 0x16F1FB with the pattern in the slots. -/
theorem test_packed_vectors :
    txin (inputs false true false false 0 0) = 0x4 ∧ rxin (inputs false false false true 0x1FB 0x1BC) = 0x16F1FB := by
  decide

/-- The step lines of programs P1, P2 and P4 (95_test_vectors.md Part 3) as they are written encoded. -/
theorem test_step_line_text :
    (⟨.tx, 0x4, 32⟩ : StepCode).chars = ['t', 'x', ' ', '0', 'x', '4', ' ', '*', '3', '2'] ∧
    (⟨.rx, 0x16F1FB, 587⟩ : StepCode).chars =
      ['r', 'x', ' ', '0', 'x', '1', '6', 'F', '1', 'F', 'B', ' ', '*', '5', '8', '7'] ∧
    (⟨.cons, 0x6, 2⟩ : StepCode).chars = ['c', 'o', 'n', 's', ' ', '0', 'x', '6', ' ', '*', '2'] := by decide

/-- The encodings of program P2's lines, and of three of P1's: a port keeps its value from line to line (R78). -/
theorem test_encode_script :
    encodeScript (resetRx ++ [.step .rx [.port .alignEnable (.num 1), junkWords] 513,
        .step .rx [.port .alignEnable (.num 1), patternWords] 587]) (InPorts.zero, 0) =
      [⟨.rx, 0x200000, 1⟩, ⟨.rx, 0x000000, 0⟩, ⟨.rx, 0x100000, 513⟩, ⟨.rx, 0x16F1FB, 587⟩] ∧
    encodeScript [.step .tx [.port .detEnable (.num 1)] 32, .expect [(.pcieDetEn, .num 1), (.pcieCt, .num 1)],
        .step .tx [.port .detectDone (.num 1)] 5, .step .tx [.port .detectDone (.num 0)] 3] (InPorts.zero, 0) =
      [⟨.tx, 0x4, 32⟩, ⟨.tx, 0x6, 5⟩, ⟨.tx, 0x4, 3⟩] := by decide

/-- R78: a step line's count is 1 where none is written; an expected `draw` is any value, an expected number that one. -/
theorem test_line_defaults_and_draw :
    Line.step .tx [] = .step .tx [] 1 ∧
    runLine (.expect [(.dtimer, .draw), (.dstate, .num 0)]) State.reset = some State.reset ∧
    runLine (.expect [(.dtimer, .num 14)]) State.reset = none := by decide

/-! ### Witnesses: states and operands that meet the hypotheses of the statements -/

/-- DecodeInvertsEncode: this hardware's sentinel, and another. -/
theorem witness_DecodeInvertsEncode :
    (Instr.svcValid .slot0 0x1FB).wf Config.hardware.sentinel = true ∧ (Instr.alignMissOvf).wf 0x0EE = true ∧
    (Instr.svcValid .slot0 0x1EE).wf 0x0EE = true := by decide

/-- The first and last words of each selector's range (CheckerAndShiftSelectors, UnusedDetectCodeIsRefused). -/
theorem witness_selector_ranges :
    ((0x3FF < 1024) ∧ dec ⟨.svc .slot0, 0x3FF⟩ = .ok (.svcValid .slot0 0x3FF)) ∧
    (1024 ≤ 1024 ∧ dec ⟨.svc .slot0, 1024⟩ = .error .tooWide) ∧
    (63 < 64 ∧ dec ⟨.rxdet, 63⟩ = .ok .rxdetReset) ∧
    (31 < 64 ∧ dec ⟨.rxdet, 31⟩ = .error .reservedDetectCode) := by decide

/-- Both hypotheses of DetectSelectorFollowsItsTable's coverage clause, each alone. -/
theorem witness_DetectSelectorFollowsItsTable :
    (0x18#6).extractLsb' 2 3 ≠ 7 ∧ (0x18#6).getLsbD 5 = false ∧
    (0x3C#6).extractLsb' 2 3 = 7 ∧ (0x3C#6).getLsbD 5 = true ∧
    (0x22#6) &&& (0x20#6) = (0x20#6) := by decide

/-- One state for each clause of StepRunsFetchedOperations. -/
theorem witness_StepRunsFetchedOperations :
    (let s := txState ⟨.start, 0, false, false, false⟩ false false false true
     nextEvent s = .tick .tx ∧ fetch .rxdet (consumeEvent s) = .ok .rxdetStartExit) ∧
    (let s := rxState ⟨.search, 0, 0, false, false⟩ false true 0 0
     nextEvent s = .tick .rx ∧ fetch .align (consumeEvent s) = .ok .alignMiss) ∧
    (nextEvent (pend (.tick .cons) State.reset) = .tick .cons) ∧
    (nextEvent (pend (.tick .ref) State.reset) = .tick .ref) ∧
    (isDrive (nextEvent (pend (.platform ⟨true, true⟩) State.reset)) = true) ∧
    (dec (selectorOf (.svc .slot1) State.reset) = .ok (.svcValid .slot1 0)) := by decide

theorem witness_PlacedWordIsFetched :
    State.reset.params.sentinel = Config.hardware.sentinel ∧
    (tableSelector 24 0x020005 = some ⟨.align, 0x05⟩ ∧ dec ⟨.align, 0x05⟩ = .ok .alignMissOvf) ∧
    (tableSelector 24 0x0801FF = some ⟨.sync .done, 0x1FF⟩ ∧ dec ⟨.sync .done, 0x1FF⟩ = .error .tooWide) ∧
    (tableSelector 24 0x090001 = some ⟨.sync .con, 1⟩ ∧ dec ⟨.sync .con, 1⟩ = .ok (.syncShift .con true)) ∧
    (tableSelector 0 0 = some ⟨.laneStatus, 0⟩ ∧ dec ⟨.laneStatus, 0⟩ = .ok .laneStatus) := by decide

theorem witness_PendingStepsRunInOrder :
    (State.reset.setPending [.tick .tx, .tick .ref, .tick .cons]).pending = [.tick .tx, .tick .ref] ++ [.tick .cons] := rfl

/-- The three premises of SyncShiftOperation and EdgeShiftsItsInstances on `SYNC_META` and `prev`. -/
theorem witness_SyncShiftOperation :
    (State.reset.params.syncMeta = false) ∧
    (let s := State.powerOn { Config.hardware with syncMeta := true } { Syncs.zero with lol := ⟨false, false, true⟩ } false
     s.params.syncMeta = true ∧ (syncGet s.sync .lol).prev = true ∧ SyncInst.done ≠ .lol) := by decide

theorem witness_CheckerOperations : Slot.slot1 ≠ Slot.slot0 := by decide

/-- An enabled search, in each state of R121 to R129 (AlignOperationsWithoutRequest, AlignRequestOperations). -/
theorem witness_AlignOperations :
    let p := fun (a : AlignRegs) (raw0 raw1 : RawWord) =>
      let s := rxState a false true raw0 raw1
      (s.inp.platform.rstRx == false && s.inp.consumer.alignEnable == true, fetch .align s)
    p ⟨.locked, 3, 0, false, false⟩ 0 0 = (true, .ok .alignLockedHold) ∧
    p ⟨.search, 0, 0xFFFF, false, false⟩ 0x1FB 0x1BC = (true, .ok .alignMatch) ∧
    p ⟨.search, 1, 0xFFFE, false, false⟩ 0x1FB 0x1BC = (true, .ok .alignCount) ∧
    p ⟨.search, 0, 0xFFFE, false, false⟩ 0 0 = (true, .ok .alignMiss) ∧
    p ⟨.search, 0, 0xFFFF, false, false⟩ 0 0 = (true, .ok .alignMissOvf) ∧
    p ⟨.search, 255, 0xFFFF, false, false⟩ 0 0 = (true, .ok .alignOvf) := by decide

/-- The edges of TxEdgeFollowsDetectTable, RxEdgeFollowsAlignTable and EdgeShiftsItsInstances, an instance of the edge's
domain and one of another. -/
theorem witness_edges :
    nextEvent (pend (.tick .tx) State.reset) = .tick .tx ∧ nextEvent (pend (.tick .rx) State.reset) = .tick .rx ∧
    destDomain State.reset.params .con = .tx ∧ destDomain State.reset.params .los ≠ .tx := by decide

/-- One state for each clause of ResetsActOnOneComponent, the first clause by either input. -/
theorem witness_ResetsActOnOneComponent :
    (let s := txState ⟨.done, 0, true, false, true⟩ true true true true
     nextEvent s = .tick .tx ∧ s.inp.platform.rstTx = true) ∧
    (let s := txState ⟨.setStrobeH, 1, true, true, true⟩ true true false false
     nextEvent s = .tick .tx ∧ s.inp.consumer.detEnable = false) ∧
    (let s := rxState ⟨.locked, 7, 0, true, true⟩ true true 0 0
     nextEvent s = .tick .rx ∧ s.inp.platform.rstRx = true) ∧
    (let s := rxState ⟨.locked, 7, 0, true, true⟩ false false 0 0
     nextEvent s = .tick .rx ∧ s.inp.platform.rstRx = false ∧ s.inp.consumer.alignEnable = false) ∧
    destDomain State.reset.params .lss ≠ .rx := by decide

theorem witness_PortChangesTouchNoRegister :
    isDrive (nextEvent (pend (.consumer ⟨true, true, ⟨0x1BC, 0⟩⟩) State.reset)) = true := by decide

/-- Steps in which each kind of register does change (RegistersChangeOnlyInTheirDomain, ParametersAreFixed). -/
theorem witness_RegistersChangeOnlyInTheirDomain :
    (∃ s t : State, step s = .next t ∧ t.det ≠ s.det) ∧ (∃ s t : State, step s = .next t ∧ t.align ≠ s.align) ∧
    (∃ s t : State, step s = .next t ∧ t.ghost ≠ s.ghost) ∧
    (∃ s t : State, step s = .next t ∧ syncGet t.sync .los ≠ syncGet s.sync .los) :=
  ⟨⟨txState ⟨.start, 3, false, false, false⟩ false false false true, _, eq_next_after (by decide), by decide⟩,
    ⟨rxState ⟨.search, 0, 0, false, false⟩ false true 0 0, _, eq_next_after (by decide), by decide⟩,
    ⟨rxState ⟨.search, 0, 0, false, false⟩ false true 0 0, _, eq_next_after (by decide), by decide⟩,
    ⟨pend (.tick .cons) (State.reset.setInp
      { InPorts.zero with xcvr := { InPorts.zero.xcvr with lossOfSignal := true } }), _,
      eq_next_after (by decide), by decide⟩⟩

/-- The four changes of DetectOutputsHaveTheirWriters. -/
theorem witness_DetectOutputsHaveTheirWriters :
    let det := fun i r => (after (exec i { State.reset with det := r })).det
    (det .rxdetStartExit ⟨.start, 0, false, false, false⟩).pcieDetEn = true ∧
    (det .rxdetReset ⟨.done, 0, true, false, false⟩).pcieDetEn = false ∧
    (det .rxdetSdhExit ⟨.setDetectH, 0, true, false, false⟩).pcieCt = true ∧
    (det .rxdetSshExit ⟨.setStrobeH, 0, true, true, false⟩).pcieCt = false ∧
    (det .rxdetReset ⟨.setStrobeH, 2, true, true, false⟩).pcieCt = false ∧
    (nextOf (exec .rxdetSdhExit State.reset)).isSome = true := by decide

/-- A step, and an operation, that change `det_status`. -/
theorem witness_DetStatusIsLatchedOnly :
    (∃ s t : State, exec .rxdetWdhExit s = .next t ∧ t.det.detStatus ≠ s.det.detStatus) ∧
    (∃ s t : State, step s = .next t ∧ t.det.detStatus ≠ s.det.detStatus) :=
  ⟨⟨txState ⟨.waitDoneH, 0, true, false, false⟩ true true false true, _, eq_next_after (by decide), by decide⟩,
    ⟨txState ⟨.waitDoneH, 0, true, false, false⟩ true true false true, _, eq_next_after (by decide), by decide⟩⟩

theorem witness_DoneIsLeftOnlyByReset :
    ∃ s t : State, step s = .next t ∧ s.det.dstate = .done ∧ t.det ≠ s.det :=
  ⟨txState ⟨.done, 0, true, false, true⟩ true true false false, _, eq_next_after (by decide), by decide⟩

theorem witness_LockedIsLeftOnlyByReset :
    ∃ s t : State, step s = .next t ∧ s.align.astate = .locked ∧ t.align.astate ≠ .locked :=
  ⟨rxState ⟨.locked, 9, 0, true, false⟩ false false 0x1FB 0x1BC, _, eq_next_after (by decide), by decide⟩

/-- A step into DONE and a step into WAIT_DONE_H (DoneNeedsLowThenHigh). -/
theorem witness_DoneNeedsLowThenHigh :
    (∃ s t : State, step s = .next t ∧ t.det.dstate = .done ∧ s.det.dstate ≠ .done) ∧
    (∃ s t : State, step s = .next t ∧ t.det.dstate = .waitDoneH ∧ s.det.dstate ≠ .waitDoneH) :=
  ⟨⟨txState ⟨.waitDoneH, 0, true, false, false⟩ true false false true, _, eq_next_after (by decide), by decide⟩,
    ⟨txState ⟨.waitDoneL, 0, true, false, false⟩ false false false true, _, eq_next_after (by decide), by decide⟩⟩

theorem witness_ValidStatusIsTheRegister :
    let s := after (settle { State.reset with det := ⟨.done, 0, true, false, true⟩ })
    PortsSettled s ∧ s.out.detValid = true := by decide

theorem witness_InvariantsHoldAtPowerOn : Params.wf { Config.hardware with syncMeta := true, detHoldLoad := 0 } = true := by
  decide

/-- Steps from states that meet the invariants and have left the power-on values (StepKeepsDetectRegisters,
StepKeepsSearchCounters, StepKeepsRequestParity, MissWithOverflowIsUnreachable). -/
theorem witness_invariants :
    (∃ s t : State, DetConsistent s ∧ s.det.dstate = .setStrobeH ∧ step s = .next t) ∧
    (∃ s t : State, SearchCounters s ∧ 0 < s.params.alignWinBits ∧ 0 < s.params.alignErrBits ∧ s.align.errTmr = 0xFFFF ∧
      step s = .next t ∧ s.inp.platform.rstRx = false) ∧
    (∃ s t : State, GhostParity s ∧ s.align.slip = true ∧ step s = .next t) :=
  ⟨⟨txState ⟨.setStrobeH, 0, true, true, false⟩ false false false true, _, by decide, by decide,
      eq_next_after (by decide)⟩,
    ⟨rxState ⟨.search, 255, 0xFFFF, false, false⟩ false true 0 0, _, by decide, by decide, by decide, by decide,
      eq_next_after (by decide),
      by decide⟩,
    ⟨{ rxState ⟨.search, 0, 0, true, false⟩ false true 0 0 with ghost := ⟨3, 2⟩ }, _, by decide, by decide,
      eq_next_after (by decide)⟩⟩

/-- SourceIsSeenAfterTwoEdges, with and without `SYNC_META`. -/
theorem witness_SourceIsSeenAfterTwoEdges :
    (let s := State.reset.setInp { InPorts.zero with xcvr := { InPorts.zero.xcvr with linkSyncStatus := true } }
     s.params.syncMeta = false ∧ sourceValue s.inp .lss = true) ∧
    (let s := (State.powerOn { Config.hardware with syncMeta := true } Syncs.zero true).setInp
        { InPorts.zero with xcvr := { InPorts.zero.xcvr with detectDone := true } }
     s.params.syncMeta = true ∧ sourceValue s.inp .done = true) := by decide

theorem witness_OnlyEdgesSeeTheSource :
    [Event.transceiver { InPorts.zero.xcvr with detectDone := true }, .transceiver InPorts.zero.xcvr].all isDrive = true := by
  decide

/-- A run that meets every premise of LatchedResultIsTwoEdgesOld, `detect_result` low again at the latching edge. -/
theorem witness_LatchedResultIsTwoEdgesOld :
    let x : XcvrPorts := { InPorts.zero.xcvr with detectDone := true, detectResult := true }
    ∃ s t₁ t₂ t₃ : State, s.params.syncMeta = false ∧ s.inp.xcvr.detectDone = true ∧
      runEvents [.tick .tx, .transceiver InPorts.zero.xcvr] s = .next t₁ ∧ react (.tick .tx) t₁ = .next t₂ ∧
      t₂.det.dstate = .waitDoneH ∧ detRst t₂ = false ∧ react (.tick .tx) t₂ = .next t₃ ∧ s.inp.xcvr = x :=
  ⟨{ State.reset with
      det := ⟨.waitDoneH, 0, true, false, false⟩
      inp := { inputs false true false false 0 0 with
        xcvr := { InPorts.zero.xcvr with detectDone := true, detectResult := true } } },
    _, _, _, by decide, by decide, eq_next_after (by decide), eq_next_after (by decide), by decide, by decide,
    eq_next_after (by decide), by decide⟩

/-- An enabled sequence with hold load 1 and strobe load 1, just out of reset. -/
def shortStart : State :=
  { State.reset with
    params := { Config.hardware with detHoldLoad := 1, detStrobeLoad := 1 }
    det := ⟨.start, 1, false, false, false⟩
    inp := inputs false true false false 0 0 }

/-- The detect state after `n` `tx` edges of the short sequence, edges of the other domains between them. -/
def shortAfter (n : Nat) : DState × BitVec 4 :=
  let t := after (runEvents ((List.replicate n [Event.tick .rx, .tick .tx]).flatten) shortStart)
  (t.det.dstate, t.det.dtimer)

/-- The premises of DetectTimeline, and its clauses at both ends of each range, `H` = 1 and `P` = 1. -/
theorem witness_DetectTimeline :
    (shortStart.det.dstate = .start ∧ shortStart.det.dtimer = shortStart.params.detHoldLoad ∧
      shortStart.det.pcieDetEn = false ∧ shortStart.det.pcieCt = false ∧ shortStart.inp.platform.rstTx = false ∧
      shortStart.inp.consumer.detEnable = true ∧
      ((List.replicate 7 [Event.tick .rx, .tick .tx]).flatten).all keepsDetecting = true ∧
      ((List.replicate 7 [Event.tick .rx, .tick .tx]).flatten).countP (isTick .tx) = 7) ∧
    shortAfter 0 = (.start, 1) ∧ shortAfter 1 = (.start, 0) ∧ shortAfter 2 = (.setDetectH, 1) ∧
    shortAfter 3 = (.setDetectH, 0) ∧ shortAfter 4 = (.setStrobeH, 1) ∧ shortAfter 5 = (.setStrobeH, 0) ∧
    shortAfter 6 = (.setStrobeL, 0) ∧ shortAfter 7 = (.waitDoneL, 0) := by decide

/-- A state that waits for `done_s` to leave `level`. -/
def waiting (level : Bool) : State :=
  { State.reset with
    det := ⟨if level then .waitDoneL else .waitDoneH, 0, true, false, false⟩
    sync := { Syncs.zero with done := ⟨level, level, level⟩ }
    inp := { inputs false true false false 0 0 with xcvr := { InPorts.zero.xcvr with detectDone := level } } }

/-- WaitsHaveNoTimeout, for both waits. -/
theorem witness_WaitsHaveNoTimeout :
    ∀ level : Bool,
      let s := waiting level
      s.det.dstate = (if level then .waitDoneL else .waitDoneH) ∧ s.sync.done.q1 = level ∧ s.sync.done.q2 = level ∧
      s.params.syncMeta = false ∧ s.sync.done.prev = level ∧ s.inp.xcvr.detectDone = level ∧
      s.inp.platform.rstTx = false ∧ s.inp.consumer.detEnable = true ∧
      [Event.tick .tx, .tick .rx, .platform ⟨false, true⟩].all keepsDetecting = true ∧
      [Event.tick .tx, .transceiver { InPorts.zero.xcvr with detectDone := level }].all (keepsDone level) = true := by
  decide

/-- An enabled sequence with both loads 0 and `detect_done` high for good, its outputs settled. -/
def quick (r : DetRegs) : State :=
  let s := { State.reset with
    params := { Config.hardware with detHoldLoad := 0, detStrobeLoad := 0 }
    sync := { Syncs.zero with done := ⟨true, true, false⟩ }
    det := r
    inp := { inputs false true false false 0 0 with xcvr := { InPorts.zero.xcvr with detectDone := true } } }
  s.setOut (portValues s)

/-- The detect registers of that sequence after `n` `tx` edges. -/
def quickRegs : Nat → DetRegs
  | 0 => ⟨.start, 0, false, false, false⟩
  | 1 => ⟨.setDetectH, 0, true, false, false⟩
  | 2 => ⟨.setStrobeH, 0, true, true, false⟩
  | 3 => ⟨.setStrobeL, 0, true, false, false⟩
  | _ => ⟨.waitDoneL, 0, true, false, false⟩

theorem quick_step (r r' : DetRegs) (h : nextOf (react (.tick .tx) (quick r)) = some (quick r')) :
    react (.tick .tx) (quick r) = .next (quick r') := by
  have hs := eq_next_after (o := react (.tick .tx) (quick r)) (by rw [h]; rfl)
  rwa [after, h] at hs

/-- A run that meets every premise of FairRunReachesWait. -/
theorem witness_FairRunReachesWait :
    let e : Nat → Event := fun _ => .tick .tx
    let r : Nat → State := fun n => quick (quickRegs n)
    IsRun e r ∧ FairTo .tx e ∧
    (∀ n, (r n).inp.platform.rstTx = false ∧ (r n).inp.consumer.detEnable = true) ∧ (r 0).det.dstate = .start := by
  refine ⟨fun n => ?_, fun n => ⟨n, Nat.le_refl n, rfl⟩, fun n => ⟨rfl, rfl⟩, rfl⟩
  match n with
  | 0 => exact quick_step _ _ (by decide)
  | 1 => exact quick_step _ _ (by decide)
  | 2 => exact quick_step _ _ (by decide)
  | 3 => exact quick_step _ _ (by decide)
  | _ + 4 => exact quick_step ⟨.waitDoneL, 0, true, false, false⟩ ⟨.waitDoneL, 0, true, false, false⟩ (by decide)

/-- A search at its start that receives junk. -/
def searching : State := { State.reset with inp := inputs false false false true 0 0 }

theorem witness_SearchNeverEndsUnmatched :
    searching.align.astate = .search ∧ searching.align.winCnt = 0 ∧ searching.align.errTmr = 0 ∧
    searching.inp.platform.rstRx = false ∧ searching.inp.consumer.alignEnable = true ∧
    isPattern searching.params searching.inp.xcvr.rxRaw = false ∧
    [Event.tick .rx, .transceiver { InPorts.zero.xcvr with rxRaw := ⟨0x1BC, 0x1FB⟩ }, .tick .tx].all keepsAligning = true ∧
    [Event.tick .rx, .transceiver { InPorts.zero.xcvr with rxRaw := ⟨0x1BC, 0x1FB⟩ }].all
      (presentsNoPattern searching.params) = true := by decide

/-- The pattern from edge `256 * n` on, junk before. -/
def patternFrom (n k : Nat) : Slots RawWord := if 256 * n ≤ k then ⟨0x1FB, 0x1BC⟩ else ⟨0, 0⟩

/-- The premises of SearchLocksAfterNSlips at both ends of its range. -/
theorem witness_SearchLocksAfterNSlips :
    ∀ n, (n = 1 ∨ n = 255) → 256 = 2 ^ searching.params.alignWinBits ∧ 1 ≤ n ∧
      256 * n < 2 ^ searching.params.alignErrBits ∧ searching.align.astate = .search ∧ searching.align.winCnt = 0 ∧
      searching.align.errTmr = 0 ∧ searching.inp.platform.rstRx = false ∧ searching.inp.consumer.alignEnable = true ∧
      (∀ k, k < n → isPattern searching.params (patternFrom n (256 * k)) = false) ∧
      isPattern searching.params (patternFrom n (256 * n)) = true := by
  intro n hn
  have he : 2 ^ searching.params.alignErrBits = 65536 := by decide
  refine ⟨by decide, by omega, by omega, by decide, by decide, by decide, by decide, by decide, fun k hk => ?_, ?_⟩
  · rw [patternFrom, if_neg (by omega)]; decide
  · rw [patternFrom, if_pos (Nat.le_refl _)]; decide

theorem witness_ZeroOffsetLocksWithoutSlip :
    let s := { State.reset with inp := inputs false false false true 0x1FB 0x1BC }
    s.align.astate = .search ∧ s.align.winCnt = 0 ∧ s.inp.platform.rstRx = false ∧ s.inp.consumer.alignEnable = true ∧
    isPattern s.params s.inp.xcvr.rxRaw = true ∧ [Event.tick .rx, .transceiver InPorts.zero.xcvr].all keepsAligning = true := by
  decide

/-- A restart of a search that had found the pattern with `slip` = 1 (V-ALN-R). -/
theorem witness_RestartKeepsPhase :
    ∃ (s t₁ t₂ : State) (c : ConsumerPorts), 0 < s.params.alignErrBits ∧
      s.inp.platform.rstRx = false ∧ s.inp.consumer.alignEnable = false ∧ c.alignEnable = true ∧ react (.tick .rx) s = .next t₁ ∧ react (.consumer c) t₁ = .next t₂ ∧ t₂.align.slip = true :=
  ⟨{ State.reset with align := ⟨.locked, 1, 0, true, false⟩, inp := inputs false false false false 0x3FB 0x3BC }, _, _,
    ⟨false, true, ⟨0, 0⟩⟩, by decide, by decide, by decide, rfl, eq_next_after (by decide), eq_next_after (by decide), by decide⟩

/-- The runs that TransmitDomainIsIsolated compares. -/
theorem witness_TransmitDomainIsIsolated :
    let es : List Event := [.tick .tx, .tick .rx, .tick .ref, .tick .cons, .consumer ⟨true, true, ⟨0, 0⟩⟩, .tick .tx]
    State.reset.params.syncMeta = false ∧ (nextOf (runEvents es State.reset)).isSome = true ∧
    (nextOf (runEvents (es.filter fun e => !(isTick .rx e || isTick .ref e || isTick .cons e)) State.reset)).isSome = true := by
  decide

/-- The runs that ReceiveDomainIsIsolated compares, from states that differ in the transmit domain. -/
theorem witness_ReceiveDomainIsIsolated :
    let s' := { State.reset with det := ⟨.done, 0, true, false, true⟩ }
    let es : List Event := [.tick .rx, .tick .tx, .consumer ⟨true, true, ⟨0, 0⟩⟩, .tick .rx]
    rxView State.reset = rxView s' ∧ State.reset.inp = s'.inp ∧ State.reset.params = s'.params ∧
    (nextOf (runEvents es State.reset)).isSome = true ∧
    (nextOf (runEvents (es.filter fun e => !(isTick .tx e || isTick .ref e || isTick .cons e)) s')).isSome = true := by
  decide

/-- ScriptPseudoOperations and HoldLoadKeepsTheHold. -/
theorem witness_script_and_hold :
    (Line.step .rx [.port .alignEnable (.num 1), patternWords] 587).wf = true ∧
    (Line.step .tx [.port (.txSymbol .slot1) (.num 0x1BC)]).wf = true ∧
    State.reset.params.syncMeta = false ∧ destDomain State.reset.params .done = .tx ∧
    destDomain State.reset.params .lol = .cons ∧ 0 < 8 ∧ 120 ≤ 15 * 8 ∧ 8 ≤ 8 ∧ (instanceFor 10).detHoldLoad = 12 := by
  decide

end Sys2Proof.Tests
end

section
/-! PROOFS of family 10_state: a step of the machine by parts, in terms of the state before it. -/

namespace Sys2Proof.Machine

/-- Parameters stay, and the input ports present what the coming step presents. -/
theorem step_inp {s t : State} (h : step s = .next t) : t.inp = present (nextEvent s) s.inp ∧ t.params = s.params := by
  obtain ⟨hinp, hparams, -⟩ := react_inp h
  exact ⟨by rw [hinp, consumeEvent_inp], by rw [hparams, consumeEvent_params]⟩

/-- A step that is no `tx` edge keeps the detect registers. -/
theorem step_det_of_ne {s t : State} (h : step s = .next t) (he : nextEvent s ≠ .tick .tx) : t.det = s.det := by
  rw [react_det h, if_neg he, consumeEvent_det]

/-- A step that is no `rx` edge keeps the alignment registers. -/
theorem step_align_of_ne {s t : State} (h : step s = .next t) (he : nextEvent s ≠ .tick .rx) : t.align = s.align := by
  rw [(react_align h).1, if_neg he, consumeEvent_align]

/-- The ghosts count the level changes over a step (R37). -/
theorem step_ghost {s t : State} (h : step s = .next t) : t.ghost = ghostNext s.align t.align s.ghost := by
  rw [(react_align h).2, consumeEvent_align, consumeEvent_ghost]

/-- Registers that did not change count nothing. -/
@[simp] theorem ghostNext_self (a : AlignRegs) (g : Ghost) : ghostNext a a g = g := by simp [ghostNext]

/-- A step that is no edge of a synchronizer's destination domain keeps its registers. -/
theorem step_sync_of_ne {s t : State} (h : step s = .next t) {i : SyncInst}
    (he : nextEvent s ≠ .tick (destDomain s.params i)) : syncGet t.sync i = syncGet s.sync i := by
  rw [(react_sync h i).2 (by rwa [consumeEvent_params]), consumeEvent_sync]

/-! ### The parity of the requests -/

/-- A level that is the parity of its change count stays so when its change, if any, is counted. -/
theorem level_eq_parity_of_counted {x : Bool} {n : Nat} (h : x = (n % 2 == 1)) (y : Bool) :
    y = ((if x = y then n else n + 1) % 2 == 1) := by
  by_cases hxy : x = y
  · rw [if_pos hxy, ← hxy, h]
  · have hflip : ((n + 1) % 2 == 1) = !(n % 2 == 1) := by
      rcases Nat.mod_two_eq_zero_or_one n with hn | hn <;> simp [Nat.add_mod, hn]
    rw [if_neg hxy, hflip, ← h]
    exact Bool.eq_not.mpr (Ne.symm hxy)

/-- Settles O45: whatever the next levels are, the ghosts count their changes. -/
theorem stepKeepsRequestParity : Obligations.StepKeepsRequestParity := by
  intro s t ⟨hslip, hinvert⟩ hstep
  unfold GhostParity
  rw [step_ghost hstep]
  exact ⟨level_eq_parity_of_counted hslip _, level_eq_parity_of_counted hinvert _⟩

/-! ### Ownership and frames -/

/-- Settles O33: no step but an edge of the owner's domain changes a register. -/
theorem registersChangeOnlyInTheirDomain : Obligations.RegistersChangeOnlyInTheirDomain := by
  intro s t hstep
  refine ⟨fun hdet => ?_, fun halign => ?_, fun hghost => ?_, fun inst hsync => ?_, (step_inp hstep).2⟩ <;>
    by_contra he
  · exact hdet (step_det_of_ne hstep he)
  · exact halign (step_align_of_ne hstep he)
  · exact hghost (by rw [step_ghost hstep, step_align_of_ne hstep he, ghostNext_self])
  · exact hsync (step_sync_of_ne hstep he)

/-- No operation writes the parameters. -/
theorem exec_params {i : Instr} {s t : State} (h : exec i s = .next t) : t.params = s.params := by
  cases i <;> cases h <;> rfl

/-- Settles O34: no operation and no step writes the parameters. -/
theorem parametersAreFixed : Obligations.ParametersAreFixed :=
  ⟨fun _ _ _ => exec_params, fun _ _ hstep => (step_inp hstep).2⟩

/-- Settles O28: the two tables of R23 read row by row. -/
theorem instanceSourcesAndDomains : Obligations.InstanceSourcesAndDomains :=
  fun _ _ => ⟨⟨rfl, rfl, rfl, rfl, rfl, rfl⟩, rfl, rfl, rfl, rfl, rfl⟩

/-- Settles O32: a step that is no edge presents its port values and settles the outputs. -/
theorem portChangesTouchNoRegister : Obligations.PortChangesTouchNoRegister :=
  fun s hdrive => ⟨_, react_drive_eq hdrive (consumeEvent s), by simp⟩

/-! ### The writers of the detect outputs (R27, R28) -/

/-- The operations that write `pcie_det_en`, and what they write. -/
theorem exec_pcieDetEn {i : Instr} {s t : State} (h : exec i s = .next t) :
    t.det.pcieDetEn =
      if i = .rxdetStartExit then true else if i = .rxdetReset then false else s.det.pcieDetEn := by
  cases i <;> cases h <;> rfl

/-- The operations that write `pcie_ct`, and what they write. -/
theorem exec_pcieCt {i : Instr} {s t : State} (h : exec i s = .next t) :
    t.det.pcieCt =
      if i = .rxdetSdhExit then true else if i = .rxdetSshExit ∨ i = .rxdetReset then false else s.det.pcieCt := by
  cases i <;> cases h <;> rfl

/-- A register that one kind of operation sets, another clears and every other keeps rises only by the first and falls
only by the second. -/
theorem writers_of_change {set clear : Prop} [Decidable set] [Decidable clear] {old new : Bool}
    (h : new = if set then true else if clear then false else old) :
    (old = false → new = true → set) ∧ (old = true → new = false → clear) := by
  subst h
  by_cases hs : set <;> by_cases hc : clear <;> simp_all

/-- Settles O35: each of the two outputs has one operation that sets it and those that clear it. -/
theorem detectOutputsHaveTheirWriters : Obligations.DetectOutputsHaveTheirWriters := by
  intro i s t hexec
  obtain ⟨henRise, henFall⟩ := writers_of_change (exec_pcieDetEn hexec)
  obtain ⟨hctRise, hctFall⟩ := writers_of_change (exec_pcieCt hexec)
  exact ⟨henRise, henFall, hctRise, hctFall⟩

end Sys2Proof.Machine
end

section
/-! PROOFS of family 10_state: two runs, one of them without the other domains' edges (R22, R55). -/

namespace Sys2Proof.Machine

/-- Two states that a relation holds of stay related over a run and the same run without some steps, when every step
taken by both keeps the relation and so does every step that only the first takes. -/
theorem runEvents_filter_rel {R : State → State → Prop} {keep : Event → Bool}
    (both : ∀ {e : Event} {s s' t t' : State}, R s s' → react e s = .next t → react e s' = .next t' → R t t')
    (skip : ∀ {e : Event} {s s' t : State}, keep e = false → R s s' → react e s = .next t → R t s')
    (es : List Event) {s s' t t' : State} (hR : R s s') (h : runEvents es s = .next t)
    (h' : runEvents (es.filter keep) s' = .next t') : R t t' := by
  induction es generalizing s s' with
  | nil => cases h; cases h'; exact hR
  | cons e es ih =>
    obtain ⟨u, hu, hrun⟩ := runEvents_cons h
    cases hk : keep e with
    | false =>
      rw [List.filter_cons_of_neg (by simp [hk])] at h'
      exact ih (skip hk hR hu) hrun h'
    | true =>
      rw [List.filter_cons_of_pos hk] at h'
      obtain ⟨u', hu', hrun'⟩ := runEvents_cons h'
      exact ih (both hR hu hu') hrun hrun'

@[simp] theorem isTick_iff {d : Domain} {e : Event} : isTick d e = true ↔ e = .tick d := beq_iff_eq

/-- An edge changes neither the input ports nor the parameters. -/
theorem react_tick_inp {d : Domain} {s t : State} (h : react (.tick d) s = .next t) :
    t.inp = s.inp ∧ t.params = s.params := by
  obtain ⟨hinp, hparams, -⟩ := react_inp h
  exact ⟨hinp, hparams⟩

/-! ### The transmit domain -/

/-- Two states without `SYNC_META` that agree in what `tx` holds and samples and in the parameters. -/
structure TxAgree (s s' : State) : Prop where
  plain : s.params.syncMeta = false
  params : s.params = s'.params
  inp : s.inp = s'.inp
  det : s.det = s'.det
  done : syncGet s.sync .done = syncGet s'.sync .done
  con : syncGet s.sync .con = syncGet s'.sync .con

/-- Without `SYNC_META` a synchronizer's next registers are known. -/
theorem react_sync_plain {e : Event} {s t : State} (hm : s.params.syncMeta = false) (h : react e s = .next t)
    (i : SyncInst) :
    syncGet t.sync i = if e = .tick (destDomain s.params i)
      then ⟨sourceValue s.inp i, (syncGet s.sync i).q1, (syncGet s.sync i).prev⟩ else syncGet s.sync i := by
  obtain ⟨hedge, hother⟩ := react_sync h i
  split
  · next he =>
    obtain ⟨free, hfree⟩ := hedge he
    rw [hfree, shiftRegs_plain hm]
  · next he => exact hother he

/-- A step taken from both states keeps their agreement. -/
theorem TxAgree.react_both {e : Event} {s s' t t' : State} (hR : TxAgree s s') (h : react e s = .next t)
    (h' : react e s' = .next t') : TxAgree t t' := by
  obtain ⟨hplain, hparams, hinp, hdet, hdone, hcon⟩ := hR
  have hplain' : s'.params.syncMeta = false := hparams ▸ hplain
  have hrst : detRst s = detRst s' := by simp only [detRst, hinp]
  have hdoneS : doneS s = doneS s' := congrArg SyncRegs.q2 hdone
  have hconS : conS s = conS s' := congrArg SyncRegs.q2 hcon
  obtain ⟨hi, hp, -⟩ := react_inp h
  obtain ⟨hi', hp', -⟩ := react_inp h'
  refine ⟨by rw [hp, hplain], by rw [hp, hp', hparams], by rw [hi, hi', hinp], ?_, ?_, ?_⟩
  · rw [react_det h, react_det h', hparams, hrst, hdoneS, hconS, hdet]
  · rw [react_sync_plain hplain h, react_sync_plain hplain' h', hparams, hinp, hdone]
  · rw [react_sync_plain hplain h, react_sync_plain hplain' h', hparams, hinp, hcon]

/-- An edge of another domain in one of the states keeps their agreement. -/
theorem TxAgree.react_left {d : Domain} {s s' t : State} (hR : TxAgree s s') (hd : d ≠ .tx)
    (h : react (.tick d) s = .next t) : TxAgree t s' := by
  have he : Event.tick d ≠ .tick .tx := fun he => hd (Event.tick.inj he)
  obtain ⟨hi, hp⟩ := react_tick_inp h
  exact ⟨hp ▸ hR.plain, hp.trans hR.params, hi.trans hR.inp, by rw [react_det h, if_neg he, hR.det],
    ((react_sync h .done).2 he).trans hR.done, ((react_sync h .con).2 he).trans hR.con⟩

/-- Settles O57, by the agreement of the two runs in what `tx` holds and samples. -/
theorem transmitDomainIsIsolated : Obligations.TransmitDomainIsIsolated := by
  intro es s t t' hplain hrun hrun'
  have hagree : TxAgree t t' := by
    refine runEvents_filter_rel TxAgree.react_both ?_ es ⟨hplain, rfl, rfl, rfl, rfl, rfl⟩ hrun hrun'
    intro e s s' u hk hR hu
    simp only [Bool.not_eq_false', Bool.or_eq_true, isTick_iff] at hk
    obtain (rfl | rfl) | rfl := hk <;> exact hR.react_left (by decide) hu
  exact Prod.ext hagree.det (Prod.ext hagree.done hagree.con)

/-! ### The receive domain -/

/-- Two states that agree in what `rx` holds and samples and in the parameters. -/
structure RxAgree (s s' : State) : Prop where
  params : s.params = s'.params
  inp : s.inp = s'.inp
  align : s.align = s'.align
  ghost : s.ghost = s'.ghost

/-- A step taken from both states keeps their agreement. -/
theorem RxAgree.react_both {e : Event} {s s' t t' : State} (hR : RxAgree s s') (h : react e s = .next t)
    (h' : react e s' = .next t') : RxAgree t t' := by
  obtain ⟨hparams, hinp, halign, hghost⟩ := hR
  have hmatch : framingMatch s = framingMatch s' := by simp only [framingMatch, hinp, hparams]
  obtain ⟨hi, hp, -⟩ := react_inp h
  obtain ⟨hi', hp', -⟩ := react_inp h'
  obtain ⟨ha, hg⟩ := react_align h
  obtain ⟨ha', hg'⟩ := react_align h'
  have hnext : t.align = t'.align := by rw [ha, ha', hparams, hinp, hmatch, halign]
  exact ⟨by rw [hp, hp', hparams], by rw [hi, hi', hinp], hnext, by rw [hg, hg', halign, hnext, hghost]⟩

/-- An edge of another domain in one of the states keeps their agreement. -/
theorem RxAgree.react_left {d : Domain} {s s' t : State} (hR : RxAgree s s') (hd : d ≠ .rx)
    (h : react (.tick d) s = .next t) : RxAgree t s' := by
  have he : Event.tick d ≠ .tick .rx := fun he => hd (Event.tick.inj he)
  obtain ⟨hi, hp⟩ := react_tick_inp h
  obtain ⟨ha, hg⟩ := react_align h
  rw [if_neg he] at ha
  rw [ha, ghostNext_self] at hg
  exact ⟨hp.trans hR.params, hi.trans hR.inp, ha.trans hR.align, hg.trans hR.ghost⟩

/-- Settles O58, by the agreement of the two runs in what `rx` holds and samples. -/
theorem receiveDomainIsIsolated : Obligations.ReceiveDomainIsIsolated := by
  intro es s s' t t' hview hinp hparams hrun hrun'
  obtain ⟨halign, hghost⟩ := Prod.mk.inj hview
  have hagree : RxAgree t t' := by
    refine runEvents_filter_rel RxAgree.react_both ?_ es ⟨hparams, hinp, halign, hghost⟩ hrun hrun'
    intro e s s' u hk hR hu
    simp only [Bool.not_eq_false', Bool.or_eq_true, isTick_iff] at hk
    obtain (rfl | rfl) | rfl := hk <;> exact hR.react_left (by decide) hu
  exact Prod.ext hagree.align hagree.ghost

end Sys2Proof.Machine
end

section
/-! PROOFS of family 20_memory: an edge by its state tables (R54). -/

namespace Sys2Proof.Machine

/-- The machine never stops (R160). -/
theorem step_answers (s : State) : ∃ t, step s = .next t :=
  react_answers (nextEvent s) (consumeEvent s)

/-- A `tx` edge takes the detect registers where the detect table says. -/
theorem step_det_of_tx {s t : State} (h : step s = .next t) (he : nextEvent s = .tick .tx) :
    t.det = detNext s.params (detRst s) (doneS s) (conS s) s.det := by
  rw [react_det h, if_pos he]
  simp only [detRst, doneS, conS, syncOut, consumeEvent_params, consumeEvent_inp, consumeEvent_sync, consumeEvent_det]

/-- An `rx` edge takes the alignment registers where the alignment table says. -/
theorem step_align_of_rx {s t : State} (h : step s = .next t) (he : nextEvent s = .tick .rx) :
    t.align = alignNext s.params s.inp.platform.rstRx s.inp.consumer.alignEnable (framingMatch s) s.align := by
  rw [(react_align h).1, if_pos he]
  simp only [framingMatch, consumeEvent_params, consumeEvent_inp, consumeEvent_align]

/-- A step that is an edge changes neither the input ports nor the parameters. -/
theorem step_inp_of_tick {s t : State} {d : Domain} (h : step s = .next t) (he : nextEvent s = .tick d) :
    t.inp = s.inp ∧ t.params = s.params := by
  obtain ⟨hinp, hparams⟩ := step_inp h
  exact ⟨by rw [hinp, he]; rfl, hparams⟩

/-- Settles O25: the detect table at the edge, and the frame of every step that is no `rx` edge. -/
theorem txEdgeFollowsDetectTable : Obligations.TxEdgeFollowsDetectTable := by
  intro s he
  obtain ⟨t, hstep⟩ := step_answers s
  have halign : t.align = s.align := step_align_of_ne hstep (by simp [he])
  have hghost : t.ghost = s.ghost := by rw [step_ghost hstep, halign, ghostNext_self]
  exact ⟨t, hstep, step_det_of_tx hstep he, halign, hghost, step_inp_of_tick hstep he⟩

/-- Settles O26: the alignment table at the edge, and the frame of every step that is no `tx` edge. -/
theorem rxEdgeFollowsAlignTable : Obligations.RxEdgeFollowsAlignTable := by
  intro s he
  obtain ⟨t, hstep⟩ := step_answers s
  have hdet : t.det = s.det := step_det_of_ne hstep (by simp [he])
  exact ⟨t, hstep, step_align_of_rx hstep he, step_ghost hstep, hdet, step_inp_of_tick hstep he⟩

end Sys2Proof.Machine
end

section
/-! PROOFS of family 20_memory: what is presented between two edges (R83). -/

namespace Sys2Proof.Machine

/-! ### No step reads the output ports -/

theorem controlled_setOut (d : Domain) (s : State) (o : OutPorts) :
    controlled d (s.setOut o) = (controlled d s).setOut o := by
  cases d <;> rfl

theorem shiftAll_setOut (p : InPorts) (is : List SyncInst) (s : State) (o : OutPorts) :
    shiftAll p is (s.setOut o) = (shiftAll p is s).setOut o := by
  induction is generalizing s with
  | nil => rfl
  | cons i is ih => exact ih (shiftSync i (sourceValue p i) s)

/-- An edge leads to the same state whatever the output ports showed before it. -/
theorem react_tick_setOut (d : Domain) (s : State) (o : OutPorts) :
    react (.tick d) (s.setOut o) = react (.tick d) s := by
  rw [react_tick, react_tick, edge_eq, edge_eq, controlled_setOut, shiftAll_setOut]
  simp only [andThen_next, settle_eq]
  rfl

/-! ### Presented values -/

/-- A run of one step is that step. -/
theorem runEvents_singleton (e : Event) (s : State) : runEvents [e] s = react e s := by
  obtain ⟨t, ht⟩ := react_answers e s
  simp only [runEvents, ht, andThen_next]

/-- An edge after steps that are no edges is the edge with the values they presented last: each of them changes only the
input ports and the output ports, and the edge does not read the latter. -/
theorem runEvents_drives_tick (es : List Event) (d : Domain) (s : State) (hes : es.all isDrive = true) :
    runEvents (es ++ [.tick d]) s = react (.tick d) (s.setInp (es.foldl (fun p e => present e p) s.inp)) := by
  induction es generalizing s with
  | nil => exact runEvents_singleton _ s
  | cons e es ih =>
    obtain ⟨he, hes⟩ : isDrive e = true ∧ es.all isDrive = true := by simpa using hes
    rw [List.cons_append, runEvents, react_drive_eq he, andThen_next, ih _ hes]
    exact react_tick_setOut d (s.setInp (es.foldl (fun p e => present e p) (present e s.inp))) _

/-- Settles O48, by induction on the steps between the edges. -/
theorem onlyEdgesSeeTheSource : Obligations.OnlyEdgesSeeTheSource := by
  intro es d s hes
  obtain ⟨t, ht⟩ := react_answers (.tick d) (s.setInp (es.foldl (fun p e => present e p) s.inp))
  exact ⟨t, (runEvents_drives_tick es d s hes).trans ht, ht⟩

end Sys2Proof.Machine
end

section
/-! PROOFS of family 20_memory: the operations a step runs (R11, R54). -/

namespace Sys2Proof.Machine

theorem andThen_assoc (o : Result) (f g : State → Result) :
    andThen (andThen o f) g = andThen o fun s => andThen (f s) g := by
  cases o <;> rfl

/-- A step that is an edge runs the components the edge's domain clocks and settles the outputs. -/
theorem step_of_tick {s : State} {d : Domain} (he : nextEvent s = .tick d) :
    step s = andThen (runFormats (consumeEvent s) (edgeFormats s.params d) (consumeEvent s)) settle := by
  rw [step, he, react_tick, edge, consumeEvent_params]

/-- An edge of a domain with a controller: the controller's operation, the shifts, the settling. -/
theorem step_of_controlled_tick {s : State} {d : Domain} {f : Format} {i : Instr} (he : nextEvent s = .tick d)
    (hd : controllerFormats d = [f]) (hf : fetch f (consumeEvent s) = .ok i) :
    step s = andThen (exec i (consumeEvent s)) fun t =>
      andThen (runFormats (consumeEvent s) ((edgeSyncs s.params d).map Format.sync) t) settle := by
  rw [step_of_tick he, edgeFormats, hd, List.singleton_append, runFormats_cons hf, andThen_assoc]
  rfl

/-- An edge of a domain without a controller: the shifts and the settling. -/
theorem step_of_uncontrolled_tick {s : State} {d : Domain} (he : nextEvent s = .tick d)
    (hd : controllerFormats d = []) :
    step s =
      andThen (runFormats (consumeEvent s) ((edgeSyncs s.params d).map Format.sync) (consumeEvent s)) settle := by
  rw [step_of_tick he, edgeFormats, hd, List.nil_append]
  rfl

/-- A step that is no edge settles the state with the presented values. -/
theorem step_of_drive {s : State} (h : isDrive (nextEvent s) = true) : step s = settle (fetchState s) :=
  react_drive h (consumeEvent s)

/-- Settles O8, kind by kind of agent's step; a component's turn and the settling are the model's own equations. -/
theorem stepRunsFetchedOperations : Obligations.StepRunsFetchedOperations := by
  refine ⟨fun s i he hf => step_of_controlled_tick he rfl hf, fun s i he hf => step_of_controlled_tick he rfl hf,
    fun s d he hd => step_of_uncontrolled_tick he ?_, fun s => step_of_drive,
    fun pre s f fs i hf => runFormats_cons hf fs s, fun s => ⟨rfl, rfl⟩⟩
  obtain rfl | rfl := hd <;> rfl

end Sys2Proof.Machine
end

section
/-! PROOFS of family 40_synchronizer: one shift and one edge of a synchronizer (R80, R84). -/

namespace Sys2Proof.Machine

/-! ### One shift -/

/-- A shift writes the registers of its synchronizer only. -/
theorem syncGet_shiftSync (i j : SyncInst) (v : Bool) (s : State) :
    syncGet (shiftSync i v s).sync j =
      if j = i then shiftRegs s.params (syncGet s.sync i) v (Config.freeBit s.draws) else syncGet s.sync j :=
  syncGet_syncSet s.sync i j _

/-- The first stage takes the sample where `SYNC_META` is off or the source did not change. -/
theorem shiftRegs_q1 {p : Params} {r : SyncRegs} {v : Bool} (h : p.syncMeta = false ∨ r.prev = v) (free : Bool) :
    (shiftRegs p r v free).q1 = v := by
  obtain hplain | hsteady := h
  · rw [shiftRegs_plain hplain]
  · rw [shiftRegs_steady hsteady]

/-- Settles O12: the shift by its own registers, by those of the other synchronizers, and by the frame of `shiftSync`. -/
theorem syncShiftOperation : Obligations.SyncShiftOperation := by
  refine ⟨fun s inst => fetch_sync inst s, fun s inst v => ⟨shiftSync inst v s, rfl, ?_⟩⟩
  have hself := syncGet_shiftSync inst inst v s
  rw [if_pos rfl] at hself
  rw [hself]
  exact ⟨rfl, fun hsure => shiftRegs_q1 hsure _, rfl,
    fun other hne => (syncGet_shiftSync inst other v s).trans (if_neg hne), rfl⟩

/-! ### One edge of the destination domain -/

/-- The coming edge of `i` samples its source for sure: `SYNC_META` is off, or the source did not change (D24). -/
abbrev SamplesSurely (s : State) (i : SyncInst) : Prop :=
  s.params.syncMeta = false ∨ (syncGet s.sync i).prev = sourceValue s.inp i

section Edge
variable {d : Domain} {s t : State} {i : SyncInst}

/-- The synchronizer takes one shift of its own registers. -/
theorem react_edge_regs (hd : destDomain s.params i = d) (h : react (.tick d) s = .next t) :
    ∃ free, syncGet t.sync i = shiftRegs s.params (syncGet s.sync i) (sourceValue s.inp i) free :=
  (react_sync h i).1 (congrArg Event.tick hd.symm)

/-- The second stage takes the first's old value. -/
theorem react_edge_q2 (hd : destDomain s.params i = d) (h : react (.tick d) s = .next t) :
    (syncGet t.sync i).q2 = (syncGet s.sync i).q1 := by
  obtain ⟨free, hregs⟩ := react_edge_regs hd h
  rw [hregs]
  rfl

/-- The first stage takes the source's value where the edge samples it for sure. -/
theorem react_edge_q1 (hd : destDomain s.params i = d) (h : react (.tick d) s = .next t) (hsure : SamplesSurely s i) :
    (syncGet t.sync i).q1 = sourceValue s.inp i := by
  obtain ⟨free, hregs⟩ := react_edge_regs hd h
  rw [hregs, shiftRegs_q1 hsure]

/-- After an edge the next one samples for sure: `prev` holds the source's value, and the source stays. -/
theorem samplesSurely_of_react_edge (hd : destDomain s.params i = d) (h : react (.tick d) s = .next t) :
    SamplesSurely t i := by
  obtain ⟨free, hregs⟩ := react_edge_regs hd h
  obtain ⟨hinp, hparams⟩ := react_tick_inp h
  unfold SamplesSurely
  rw [hparams, hinp, hregs]
  cases hm : s.params.syncMeta with
  | false => exact .inl rfl
  | true => exact .inr (if_pos hm)

end Edge

/-- Settles O27: a step that is an edge of `d` shifts the synchronizers of `d`, and is no edge of the others' domains. -/
theorem edgeShiftsItsInstances : Obligations.EdgeShiftsItsInstances := by
  intro s d he
  obtain ⟨t, hstep⟩ := step_answers s
  refine ⟨t, hstep, fun inst => ⟨fun hd => ?_, fun hd => step_sync_of_ne hstep fun he' => ?_⟩⟩
  · have hedge : react (.tick d) (consumeEvent s) = .next t := he ▸ hstep
    have hd' : destDomain (consumeEvent s).params inst = d := by rw [consumeEvent_params, hd]
    have hq2 := react_edge_q2 hd' hedge
    have hq1 := react_edge_q1 hd' hedge
    simp only [SamplesSurely, consumeEvent_params, consumeEvent_sync, consumeEvent_inp] at hq1 hq2
    exact ⟨hq2, hq1⟩
  · exact hd (Event.tick.inj (he.symm.trans he')).symm

end Sys2Proof.Machine
end

section
/-! PROOFS of family 40_synchronizer: a source over several edges (R82, R84, R187). -/

namespace Sys2Proof.Machine

/-- What an edge samples for sure is seen after the next one, whatever happens in between, as long as the synchronizer keeps
its registers. -/
theorem syncOut_of_two_edges {d : Domain} {s t u w : State} {i : SyncInst} (hd : destDomain s.params i = d)
    (hsure : SamplesSurely s i) (hfirst : react (.tick d) s = .next t) (hkeep : syncGet u.sync i = syncGet t.sync i)
    (hd' : destDomain u.params i = d) (hsecond : react (.tick d) u = .next w) :
    syncOut w i = sourceValue s.inp i := by
  calc syncOut w i
    _ = (syncGet u.sync i).q1 := react_edge_q2 hd' hsecond
    _ = (syncGet t.sync i).q1 := by rw [hkeep]
    _ = sourceValue s.inp i := react_edge_q1 hd hfirst hsure

/-- Two edges in a row, the first of which samples for sure, show the source's value in both stages; the first edge alone
shows the old first stage. -/
theorem two_edges_show_source {d : Domain} {s : State} {i : SyncInst} (hd : destDomain s.params i = d)
    (hsure : SamplesSurely s i) :
    ∃ t₁ t₂, react (.tick d) s = .next t₁ ∧ react (.tick d) t₁ = .next t₂ ∧
      syncOut t₁ i = (syncGet s.sync i).q1 ∧ syncOut t₂ i = sourceValue s.inp i ∧
      (syncGet t₂.sync i).q1 = sourceValue s.inp i := by
  obtain ⟨t₁, h₁⟩ := react_answers (.tick d) s
  obtain ⟨t₂, h₂⟩ := react_answers (.tick d) t₁
  obtain ⟨hinp, hparams⟩ := react_tick_inp h₁
  have hd₁ : destDomain t₁.params i = d := by rw [hparams, hd]
  have hq1 := react_edge_q1 hd₁ h₂ (samplesSurely_of_react_edge hd h₁)
  rw [hinp] at hq1
  exact ⟨t₁, t₂, h₁, h₂, react_edge_q2 hd h₁, syncOut_of_two_edges hd hsure h₁ rfl hd₁ h₂, hq1⟩

/-- Settles O47: without `SYNC_META` the first edge samples for sure, and with any setting the second does. -/
theorem sourceIsSeenAfterTwoEdges : Obligations.SourceIsSeenAfterTwoEdges := by
  refine ⟨?_, ?_⟩
  · rintro s inst v hplain rfl
    exact two_edges_show_source rfl (.inl hplain)
  · rintro s inst v rfl
    obtain ⟨t₁, h₁⟩ := react_answers (.tick (destDomain s.params inst)) s
    obtain ⟨hinp, hparams⟩ := react_tick_inp h₁
    obtain ⟨t₂, t₃, h₂, h₃, -, hseen, -⟩ :=
      two_edges_show_source (by rw [hparams]) (samplesSurely_of_react_edge rfl h₁)
    exact ⟨t₁, t₂, t₃, h₁, h₂, h₃, react_edge_q2 rfl h₁, by rw [hseen, hinp]⟩

/-- In WAIT_DONE_H with `done_s` = 1 the detect table enters DONE and latches `con_s` (R113). -/
theorem detNext_of_waitDoneH {p : Params} {r : DetRegs} (con : Bool) (h : r.dstate = .waitDoneH) :
    detNext p false true con r = { r with dstate := .done, detStatus := con } := by
  simp [detNext, h]

/-- Settles O49: before the third edge `done_s` and `con_s` are what the first one sampled, and the detect table latches
`con_s`. -/
theorem latchedResultIsTwoEdgesOld : Obligations.LatchedResultIsTwoEdgesOld := by
  intro s t₁ t₂ t₃ x hplain hdone hrun h₂ hwait hrst h₃
  obtain ⟨u, h₁, hdrive⟩ := runEvents_cons hrun
  rw [runEvents_singleton] at hdrive
  have hseen (i : SyncInst) (hd : ∀ p, destDomain p i = .tx) : syncOut t₂ i = sourceValue s.inp i :=
    syncOut_of_two_edges (hd _) (.inl hplain) h₁ ((react_sync hdrive i).2 nofun) (hd _) h₂
  have hdoneS : doneS t₂ = true := (hseen .done destDomain_done).trans hdone
  have hconS : conS t₂ = s.inp.xcvr.detectResult := hseen .con destDomain_con
  rw [react_det h₃, if_pos rfl, hrst, hdoneS, hconS, detNext_of_waitDoneH _ hwait]
  exact ⟨rfl, rfl⟩

end Sys2Proof.Machine
end

section
/-! PROOFS of family 41_symbol_checker: the checker's two operations, and a slot's ports after a step (R90 to R94). -/

namespace Sys2Proof.Machine

/-! ### The two operations -/

/-- Classifying a slot writes its flag and its symbol, and nothing else (R94). -/
theorem classifySlot_writes (slot : Slot) (valid : Bool) (sym : Sym) (s : State) :
    slotGet (classifySlot slot valid sym s).out.rxValid slot = valid ∧
    slotGet (classifySlot slot valid sym s).out.symbol slot = sym ∧
    (∀ other, other ≠ slot →
      slotGet (classifySlot slot valid sym s).out.rxValid other = slotGet s.out.rxValid other ∧
      slotGet (classifySlot slot valid sym s).out.symbol other = slotGet s.out.symbol other) ∧
    { classifySlot slot valid sym s with
      out := { (classifySlot slot valid sym s).out with rxValid := s.out.rxValid, symbol := s.out.symbol } } = s := by
  have hget {α : Type} (v : Slots α) (x : α) (j : Slot) := slotGet_slotSet v slot j x
  exact ⟨(hget _ _ slot).trans (if_pos rfl), (hget _ _ slot).trans (if_pos rfl),
    fun other hne => ⟨(hget _ _ other).trans (if_neg hne), (hget _ _ other).trans (if_neg hne)⟩, rfl⟩

/-- Settles O13: the raw word's row is the sentinel's or the fallback, and each row classifies its slot alone. -/
theorem checkerOperations : Obligations.CheckerOperations := by
  refine ⟨fun s slot => ?_, fun s slot => ⟨_, rfl, classifySlot_writes slot false _ s⟩,
    fun s slot raw => ⟨_, rfl, classifySlot_writes slot true _ s⟩, rfl⟩
  rw [fetch_svc, decodeSvc_eq]

/-! ### The ports after a step -/

/-- A slot's flag is its own raw word's (R94, R144). -/
theorem slotGet_rxValidFlags (s : State) (slot : Slot) :
    slotGet (rxValidFlags s) slot = rawValid s.params (slotGet s.inp.xcvr.rxRaw slot) := by
  cases slot <;> rfl

/-- A slot's symbol is its own raw word's (R92, R94). -/
theorem slotGet_symbolPorts (s : State) (slot : Slot) :
    slotGet (symbolPorts s) slot = symbolOf (slotGet s.inp.xcvr.rxRaw slot) := by
  cases slot <;> rfl

/-- Only the sentinel is invalid (R90, R91). -/
theorem rawValid_eq_false_iff {p : Params} {raw : RawWord} : rawValid p raw = false ↔ raw = p.sentinel :=
  bne_eq_false_iff_eq

/-- Settles O31: the settled ports are functions of the slot's own raw word. -/
theorem slotsAreClassifiedAlone : Obligations.SlotsAreClassifiedAlone := by
  intro s
  obtain ⟨t, hstep⟩ := step_answers s
  have hout : t.out = portValues t := react_out hstep
  refine ⟨t, hstep, fun slot => ?_⟩
  have hvalid : slotGet t.out.rxValid slot = rawValid t.params (slotGet t.inp.xcvr.rxRaw slot) := by
    rw [hout]; exact slotGet_rxValidFlags t slot
  have hsymbol : slotGet t.out.symbol slot = symbolOf (slotGet t.inp.xcvr.rxRaw slot) := by
    rw [hout]; exact slotGet_symbolPorts t slot
  exact ⟨hvalid ▸ rawValid_eq_false_iff, hsymbol⟩

end Sys2Proof.Machine
end

section
/-! PROOFS of family 42_rx_detect: the thirteen operations, when each is fetched and what it does (R102 to R114). -/

namespace Sys2Proof.Machine

/-! ### When an operation is fetched -/

/-- The detect state an operation belongs to; RXDET_RESET belongs to none. -/
def homeState : Instr → Option DState
  | .rxdetStartCount | .rxdetStartExit => some .start
  | .rxdetSdhCount | .rxdetSdhExit => some .setDetectH
  | .rxdetSshCount | .rxdetSshExit => some .setStrobeH
  | .rxdetSsl => some .setStrobeL
  | .rxdetWdlWait | .rxdetWdlExit => some .waitDoneL
  | .rxdetWdhWait | .rxdetWdhExit => some .waitDoneH
  | .rxdetDoneHold => some .done
  | _ => none

/-- Without reset the operation picked belongs to the detect state. -/
theorem homeState_rxdetPick (d : DState) (zero done : Bool) : homeState (rxdetPick false d zero done) = some d := by
  cases d <;> cases zero <;> cases done <;> rfl

/-- The operation fetched is the one the selector's bits pick. -/
theorem fetch_rxdet_eq_iff (s : State) (i : Instr) :
    fetch .rxdet s = .ok i ↔ rxdetPick (detRst s) s.det.dstate (s.det.dtimer == 0) (doneS s) = i := by
  rw [fetch_rxdet, Except.ok.injEq]

/-- An operation of a detect state is fetched without reset, in that state only, and there by the timer and `done_s`. -/
theorem fetch_home_iff {i : Instr} {d : DState} (hi : homeState i = some d) (s : State) :
    fetch .rxdet s = .ok i ↔
      detRst s = false ∧ s.det.dstate = d ∧ rxdetPick false d (s.det.dtimer == 0) (doneS s) = i := by
  rw [fetch_rxdet_eq_iff]
  cases hrst : detRst s with
  | true =>
    have hne : Instr.rxdetReset ≠ i := by rintro rfl; cases hi
    simp [rxdetPick, hne]
  | false =>
    constructor
    · intro hpick
      have hd : s.det.dstate = d := by
        rw [← hpick, homeState_rxdetPick] at hi
        exact Option.some.inj hi
      exact ⟨rfl, hd, hd ▸ hpick⟩
    · rintro ⟨-, rfl, hpick⟩
      exact hpick

/-- RXDET_RESET is fetched under the reset condition only. -/
theorem fetch_reset_iff (s : State) : fetch .rxdet s = .ok .rxdetReset ↔ detRst s = true := by
  rw [fetch_rxdet_eq_iff]
  cases hrst : detRst s with
  | true => simp [rxdetPick]
  | false =>
    refine ⟨fun hpick => ?_, nofun⟩
    have hhome := homeState_rxdetPick s.det.dstate (s.det.dtimer == 0) (doneS s)
    rw [hpick] at hhome
    cases hhome

/-- The reset condition by its ports (R100). -/
theorem detRst_eq_true_iff {s : State} :
    detRst s = true ↔ s.inp.platform.rstTx = true ∨ s.inp.consumer.detEnable = false := by
  simp [detRst]

theorem detRst_eq_false_iff {s : State} :
    detRst s = false ↔ s.inp.platform.rstTx = false ∧ s.inp.consumer.detEnable = true := by
  simp [detRst]

/-- The second stage of `S_done` is `done_s` (R23, R81). -/
theorem done_q2 (s : State) : s.sync.done.q2 = doneS s := rfl

/-! ### The operations -/

/-- Settles O14: the reset's row and its writes. -/
theorem detectResetOperation : Obligations.DetectResetOperation :=
  ⟨fun s => (fetch_reset_iff s).trans detRst_eq_true_iff, fun _ => ⟨_, rfl, rfl, rfl, rfl⟩⟩

/-- Settles O15: in each of the three timed states a timer that is not 0 picks the countdown. -/
theorem detectCountdownOperations : Obligations.DetectCountdownOperations := by
  refine ⟨fun s => ⟨?_, ?_, ?_⟩, fun _ => ⟨rfl, rfl, rfl⟩⟩ <;> rw [fetch_home_iff rfl] <;> simp [rxdetPick]

/-- Settles O16: in each of the three timed states a timer at 0 picks the exit. -/
theorem detectCountdownExits : Obligations.DetectCountdownExits := by
  refine ⟨fun s => ⟨?_, ?_, ?_⟩, fun _ => ⟨_, _, _, rfl, rfl, rfl, rfl, rfl, rfl, rfl, rfl, rfl⟩⟩ <;>
    rw [fetch_home_iff rfl] <;> simp [rxdetPick]

/-- Settles O17: SET_STROBE_L has one operation, and a low `done_s` picks the exit of WAIT_DONE_L. -/
theorem detectStateAdvances : Obligations.DetectStateAdvances := by
  refine ⟨fun s => ⟨?_, ?_⟩, fun _ => ⟨rfl, rfl⟩⟩ <;> rw [fetch_home_iff rfl] <;> simp [rxdetPick, done_q2]

/-- Settles O18: each wait is picked by the level of `done_s` that it waits to end, and DONE has one operation. -/
theorem detectHoldOperations : Obligations.DetectHoldOperations := by
  refine ⟨fun s => ⟨?_, ?_, ?_⟩, fun _ => ⟨rfl, rfl, rfl⟩⟩ <;>
    rw [fetch_home_iff rfl] <;> simp [rxdetPick, done_q2]

/-- RXDET_WDH_EXIT is fetched in WAIT_DONE_H, without reset, when `done_s` is high (R113). -/
theorem fetch_wdhExit_iff (s : State) :
    fetch .rxdet s = .ok .rxdetWdhExit ↔
      detRst s = false ∧ s.det.dstate = .waitDoneH ∧ s.sync.done.q2 = true := by
  rw [fetch_home_iff rfl]
  simp [rxdetPick, done_q2]

/-- Settles O19: the latching operation's row and its writes. -/
theorem detectLatchOperation : Obligations.DetectLatchOperation :=
  ⟨fetch_wdhExit_iff, fun _ => ⟨_, rfl, rfl, rfl, rfl⟩⟩

/-- Settles O40: a settled `det_valid` = 1 is the flag, and the flag is DONE. -/
theorem validStatusIsTheRegister : Obligations.ValidStatusIsTheRegister := by
  intro s hsettled hvalid
  rw [hsettled] at hvalid
  have hflag : detValidFlag s = true := hvalid
  have hobserved : observedDetStatus s = s.det.detStatus := if_pos hflag
  refine ⟨hobserved, Prod.ext hobserved (if_pos hflag), by rw [hsettled]; rfl, ?_⟩
  simpa [detValidFlag] using hflag

end Sys2Proof.Machine
end

section
/-! PROOFS of family 42_rx_detect: a step's change of the detect registers, by the operation it fetches (R113, R114,
R119). -/

namespace Sys2Proof.Machine

/-- A step that changes the detect registers is a `tx` edge, and the operation fetched there makes the change. -/
theorem step_det_operation {s t : State} (h : step s = .next t) (hne : t.det ≠ s.det) :
    nextEvent s = .tick .tx ∧ ∃ i u, fetch .rxdet s = .ok i ∧ exec i s = .next u ∧ u.det = t.det := by
  have he : nextEvent s = .tick .tx := by
    by_contra he
    exact hne (step_det_of_ne h he)
  exact ⟨he, _, _, fetch_rxdet s, exec_rxdetPick s _ _, (step_det_of_tx h he).symm⟩

/-! ### The writers of `det_status` (R29) -/

/-- The operation that writes `det_status`, and what it writes. -/
theorem exec_detStatus {i : Instr} {s t : State} (h : exec i s = .next t) :
    t.det.detStatus = if i = .rxdetWdhExit then s.sync.con.q2 else s.det.detStatus := by
  cases i <;> cases h <;> rfl

/-- An operation that changes `det_status` is RXDET_WDH_EXIT. -/
theorem eq_wdhExit_of_detStatus_ne {i : Instr} {s t : State} (h : exec i s = .next t)
    (hne : t.det.detStatus ≠ s.det.detStatus) : i = .rxdetWdhExit := by
  by_contra hi
  exact hne (by rw [exec_detStatus h, if_neg hi])

/-- Settles O36: the step's change is its operation's, and that is RXDET_WDH_EXIT. -/
theorem detStatusIsLatchedOnly : Obligations.DetStatusIsLatchedOnly := by
  constructor
  · intro i s t hexec hne
    obtain rfl := eq_wdhExit_of_detStatus_ne hexec hne
    exact ⟨rfl, exec_detStatus hexec⟩
  · intro s t hstep hne
    obtain ⟨he, i, u, hfetch, hexec, hdet⟩ := step_det_operation hstep fun hdet => hne (congrArg _ hdet)
    rw [← hdet] at hne ⊢
    obtain rfl := eq_wdhExit_of_detStatus_ne hexec hne
    obtain ⟨hrst, hwait, hdone⟩ := (fetch_wdhExit_iff s).mp hfetch
    cases hexec
    exact ⟨he, hrst, hwait, hdone, rfl, rfl⟩

/-! ### Entering and leaving a detect state -/

/-- The detect state an operation enters, if it writes `dstate`. -/
def enteredState : Instr → Option DState
  | .rxdetReset => some .start
  | .rxdetStartExit => some .setDetectH
  | .rxdetSdhExit => some .setStrobeH
  | .rxdetSshExit => some .setStrobeL
  | .rxdetSsl => some .waitDoneL
  | .rxdetWdlExit => some .waitDoneH
  | .rxdetWdhExit => some .done
  | _ => none

/-- The operations that write `dstate`, and what they write. -/
theorem exec_dstate {i : Instr} {s t : State} (h : exec i s = .next t) :
    t.det.dstate = (enteredState i).getD s.det.dstate := by
  cases i <;> cases h <;> rfl

/-- A step into another detect state fetches an operation that enters it. -/
theorem step_enters {s t : State} {d : DState} (h : step s = .next t) (hin : t.det.dstate = d)
    (hout : s.det.dstate ≠ d) : ∃ i, fetch .rxdet s = .ok i ∧ enteredState i = some d := by
  obtain ⟨-, i, u, hfetch, hexec, hdet⟩ := step_det_operation h fun hdet => hout (hdet ▸ hin)
  refine ⟨i, hfetch, ?_⟩
  have hd := exec_dstate hexec
  rw [hdet, hin] at hd
  cases hi : enteredState i with
  | none => rw [hi] at hd; exact absurd hd.symm hout
  | some d' => rw [hi] at hd; exact congrArg some hd.symm

/-- Settles O39: DONE and WAIT_DONE_H are each entered by one operation, and that is fetched as its row says. -/
theorem doneNeedsLowThenHigh : Obligations.DoneNeedsLowThenHigh := by
  intro s t hstep
  constructor
  · intro hin hout
    obtain ⟨i, hfetch, hi⟩ := step_enters hstep hin hout
    obtain rfl : i = .rxdetWdhExit := by cases i <;> cases hi; rfl
    exact ((fetch_wdhExit_iff s).mp hfetch).2
  · intro hin hout
    obtain ⟨i, hfetch, hi⟩ := step_enters hstep hin hout
    obtain rfl : i = .rxdetWdlExit := by cases i <;> cases hi; rfl
    exact ((detectStateAdvances.1 s).2.mp hfetch).2

/-- Settles O37: without reset DONE fetches the operation that changes nothing. -/
theorem doneIsLeftOnlyByReset : Obligations.DoneIsLeftOnlyByReset := by
  intro s t hstep hdone hne
  obtain ⟨he, i, u, hfetch, hexec, hdet⟩ := step_det_operation hstep hne
  cases hrst : detRst s with
  | false =>
    rw [((detectHoldOperations.1 s).2.2).mpr ⟨hrst, hdone⟩] at hfetch
    cases hfetch
    cases hexec
    exact absurd hdet.symm hne
  | true =>
    rw [(fetch_reset_iff s).mpr hrst] at hfetch
    cases hfetch
    cases hexec
    exact ⟨he, detRst_eq_true_iff.mp hrst, hdet ▸ rfl⟩

end Sys2Proof.Machine
end

section
/-! PROOFS of family 42_rx_detect: the two waits over any run (R117). -/

namespace Sys2Proof.Machine

/-- A predicate that every allowed step keeps holds after every run of allowed steps. -/
theorem runEvents_keeps {P : State → Prop} {allowed : Event → Prop}
    (hkeep : ∀ {e : Event} {s t : State}, allowed e → P s → react e s = .next t → P t) (es : List Event)
    {s t : State} (hes : ∀ e ∈ es, allowed e) (hs : P s) (h : runEvents es s = .next t) : P t := by
  induction es generalizing s with
  | nil => cases h; exact hs
  | cons e es ih =>
    obtain ⟨u, hu, hrun⟩ := runEvents_cons h
    obtain ⟨he, hes⟩ := List.forall_mem_cons.mp hes
    exact ih hes (hkeep he hs hu) hrun

/-- A step that leaves the sequence enabled keeps the reset condition false. -/
theorem react_keepsDetecting {e : Event} {s t : State} (he : keepsDetecting e = true) (hrst : detRst s = false)
    (h : react e s = .next t) : detRst t = false := by
  rw [detRst_eq_false_iff] at hrst ⊢
  obtain ⟨hrstTx, henable⟩ := hrst
  rw [(react_inp h).1]
  cases e with
  | tick d => exact ⟨hrstTx, henable⟩
  | transceiver p => exact ⟨hrstTx, henable⟩
  | consumer p => exact ⟨hrstTx, he⟩
  | platform p => exact ⟨Bool.not_eq_eq_eq_not.mp he, henable⟩

/-- A step that presents no other `detect_done` keeps its level. -/
theorem react_keepsDone {e : Event} {b : Bool} {s t : State} (he : keepsDone b e = true)
    (hdone : s.inp.xcvr.detectDone = b) (h : react e s = .next t) : t.inp.xcvr.detectDone = b := by
  rw [(react_inp h).1]
  cases e with
  | transceiver p => exact beq_iff_eq.mp he
  | tick d => exact hdone
  | consumer p => exact hdone
  | platform p => exact hdone

/-- A synchronizer whose stages hold the source's value stays as it is over a shift that samples for sure. -/
theorem shiftRegs_of_stages_eq {p : Params} {r : SyncRegs} {v : Bool} (h₁ : r.q1 = v) (h₂ : r.q2 = v)
    (hsure : p.syncMeta = false ∨ r.prev = v) (free : Bool) : shiftRegs p r v free = r := by
  have hshift : shiftRegs p r v free = ⟨v, r.q1, r.prev⟩ :=
    hsure.elim (shiftRegs_plain · r v free) (shiftRegs_steady · free)
  rw [hshift]
  cases r
  cases h₁
  cases h₂
  rfl

/-- The controller waits for `detect_done` to leave `level`: in WAIT_DONE_L where it is 1, in WAIT_DONE_H where it is 0,
without reset, and with the source and both stages of `S_done` at `level`. -/
structure Stalled (level : Bool) (s : State) : Prop where
  waiting : s.det.dstate = if level then .waitDoneL else .waitDoneH
  q1 : (syncGet s.sync .done).q1 = level
  q2 : (syncGet s.sync .done).q2 = level
  sure : s.params.syncMeta = false ∨ (syncGet s.sync .done).prev = level
  source : s.inp.xcvr.detectDone = level
  enabled : detRst s = false

/-- The detect table keeps a wait while `done_s` has the level that it waits to end (R110, R112). -/
theorem detNext_of_wait {p : Params} {level con : Bool} {r : DetRegs}
    (h : r.dstate = if level then .waitDoneL else .waitDoneH) : detNext p false level con r = r := by
  cases level with
  | true => simp [detNext, show r.dstate = .waitDoneL from h]
  | false => simp [detNext, show r.dstate = .waitDoneH from h]

/-- A stalled controller keeps its registers over every allowed step, and stays stalled. -/
theorem Stalled.react {level : Bool} {e : Event} {s t : State} (hs : Stalled level s)
    (hdetecting : keepsDetecting e = true) (hdone : keepsDone level e = true) (h : react e s = .next t) :
    Stalled level t ∧ t.det = s.det := by
  obtain ⟨hwait, hq1, hq2, hsure, hsource, hrst⟩ := hs
  have hdet : t.det = s.det := by
    rw [react_det h, hrst, show doneS s = level from hq2, detNext_of_wait hwait, ite_self]
  have hsync : syncGet t.sync .done = syncGet s.sync .done := by
    by_cases he : e = .tick .tx
    · obtain ⟨free, hregs⟩ := (react_sync h .done).1 he
      rw [hregs, show sourceValue s.inp .done = level from hsource, shiftRegs_of_stages_eq hq1 hq2 hsure]
    · exact (react_sync h .done).2 he
  exact ⟨⟨by rw [hdet, hwait], by rw [hsync, hq1], by rw [hsync, hq2], by rwa [hsync, (react_inp h).2.1],
    react_keepsDone hdone hsource h, react_keepsDetecting hdetecting hrst h⟩, hdet⟩

/-- Settles O51: a stalled controller stays so, with the registers it began with. -/
theorem waitsHaveNoTimeout : Obligations.WaitsHaveNoTimeout := by
  intro es s level hwait hq1 hq2 hsure hsource hrstTx henable hdetecting hdone
  obtain ⟨t, hrun⟩ := runEvents_answers es s
  have hallowed : ∀ e ∈ es, keepsDetecting e = true ∧ keepsDone level e = true := fun e he =>
    ⟨List.all_eq_true.mp hdetecting e he, List.all_eq_true.mp hdone e he⟩
  have hstart : Stalled level s := ⟨hwait, hq1, hq2, hsure, hsource, detRst_eq_false_iff.mpr ⟨hrstTx, henable⟩⟩
  obtain ⟨hstalled, hdet⟩ : Stalled level t ∧ t.det = s.det := by
    refine runEvents_keeps (P := fun u => Stalled level u ∧ u.det = s.det) ?_ es hallowed ⟨hstart, rfl⟩ hrun
    rintro e u v ⟨hdetecting, hdone⟩ ⟨hu, hdet⟩ hreact
    obtain ⟨hv, hkept⟩ := hu.react hdetecting hdone hreact
    exact ⟨hv, hkept.trans hdet⟩
  refine ⟨t, hrun, hdet, ?_⟩
  rw [detValidFlag, hstalled.waiting]
  cases level <;> rfl

end Sys2Proof.Machine
end

section
/-! PROOFS of family 42_rx_detect: an enabled sequence reaches WAIT_DONE_L in every run fair to `tx` (R56, R196). -/

namespace Sys2Proof.Machine

/-- How many `tx` edges the sequence takes at most until it enters WAIT_DONE_L, each timer load being below 16; 0 in
WAIT_DONE_L and after it. -/
def edgesToWait (r : DetRegs) : Nat :=
  match r.dstate with
  | .start => 34 + r.dtimer.toNat
  | .setDetectH => 18 + r.dtimer.toNat
  | .setStrobeH => 2 + r.dtimer.toNat
  | .setStrobeL => 1
  | .waitDoneL | .waitDoneH | .done => 0

/-- A countdown brings the wait one edge nearer (R103, R105, R107). -/
theorem edgesToWait_detNext_of_count {p : Params} {done con : Bool} {r : DetRegs} (hz : r.dtimer ≠ 0)
    (hd : r.dstate = .start ∨ r.dstate = .setDetectH ∨ r.dstate = .setStrobeH) :
    edgesToWait (detNext p false done con r) < edgesToWait r ∧ 0 < edgesToWait (detNext p false done con r) := by
  have hnext : detNext p false done con r = { r with dtimer := r.dtimer - 1 } := by
    obtain hd | hd | hd := hd <;> simp only [detNext, hd, if_neg hz] <;> rfl
  have hcount : (r.dtimer - 1).toNat < r.dtimer.toNat := by bv_omega
  rw [hnext]
  obtain hd | hd | hd := hd <;> simp only [edgesToWait, hd] <;> omega

/-- Before the wait every `tx` edge brings it nearer, and the edge after which nothing is left enters WAIT_DONE_L. -/
theorem edgesToWait_detNext {p : Params} {done con : Bool} {r : DetRegs} (h : 0 < edgesToWait r) :
    edgesToWait (detNext p false done con r) < edgesToWait r ∧
      (0 < edgesToWait (detNext p false done con r) ∨ (detNext p false done con r).dstate = .waitDoneL) := by
  have hhold := p.detHoldLoad.isLt
  have hstrobe := p.detStrobeLoad.isLt
  by_cases hcount : r.dtimer ≠ 0 ∧ (r.dstate = .start ∨ r.dstate = .setDetectH ∨ r.dstate = .setStrobeH)
  · obtain ⟨hz, htimed⟩ := hcount
    exact (edgesToWait_detNext_of_count hz htimed).imp_right .inl
  · have hz (htimed : r.dstate = .start ∨ r.dstate = .setDetectH ∨ r.dstate = .setStrobeH) : r.dtimer = 0 :=
      not_not.mp fun hz => hcount ⟨hz, htimed⟩
    cases hd : r.dstate with
    | start =>
      simp only [detNext, edgesToWait, hd, if_pos (hz (.inl hd)), Bool.false_eq_true, if_false]
      omega
    | setDetectH =>
      simp only [detNext, edgesToWait, hd, if_pos (hz (.inr (.inl hd))), Bool.false_eq_true, if_false]
      omega
    | setStrobeH => simp [detNext, edgesToWait, hd, hz (.inr (.inr hd))]
    | setStrobeL => simp [detNext, edgesToWait, hd]
    | waitDoneL => simp [edgesToWait, hd] at h
    | waitDoneH => simp [edgesToWait, hd] at h
    | done => simp [edgesToWait, hd] at h

/-- A run that is fair to `tx` comes to a `tx` edge with the detect registers it has now. -/
theorem exists_tx_edge_of_fair {e : Nat → Event} {r : Nat → State} (hrun : IsRun e r) (hfair : FairTo .tx e)
    (n : Nat) : ∃ k, e k = .tick .tx ∧ (r k).det = (r n).det := by
  obtain ⟨m, hnm, hm⟩ := hfair n
  induction hnm using Nat.decreasingInduction with
  | self => exact ⟨m, hm, rfl⟩
  | of_succ n _ ih =>
    obtain ⟨k, hk, hdet⟩ := ih
    by_cases he : e n = .tick .tx
    · exact ⟨n, he, rfl⟩
    · exact ⟨k, hk, by rw [hdet, react_det (hrun n), if_neg he]⟩

/-- While edges to the wait are left, the run enters WAIT_DONE_L, by induction on how many. -/
theorem reaches_wait_of_edgesToWait {e : Nat → Event} {r : Nat → State} (hrun : IsRun e r) (hfair : FairTo .tx e)
    (hrst : ∀ n, detRst (r n) = false) (n : Nat) (hn : 0 < edgesToWait (r n).det) :
    ∃ m, (r m).det.dstate = .waitDoneL := by
  induction hleft : edgesToWait (r n).det using Nat.strong_induction_on generalizing n with
  | _ left ih =>
    obtain ⟨k, hk, hdet⟩ := exists_tx_edge_of_fair hrun hfair n
    have hnext := react_det (hrun k)
    rw [if_pos hk, hrst k, hdet] at hnext
    obtain ⟨hlt, hwait⟩ := edgesToWait_detNext (p := (r k).params) (done := doneS (r k)) (con := conS (r k)) hn
    rw [← hnext] at hlt hwait
    obtain hpos | hwait := hwait
    · exact ih _ (hleft ▸ hlt) (k + 1) hpos rfl
    · exact ⟨k + 1, hwait⟩

/-- Settles O52: in START edges to the wait are left, whatever the timer holds. -/
theorem fairRunReachesWait : Obligations.FairRunReachesWait := by
  intro e r hrun hfair henabled hstart
  have hleft : 0 < edgesToWait (r 0).det := by
    rw [edgesToWait, hstart]
    exact Nat.add_pos_left (by decide) _
  exact reaches_wait_of_edgesToWait hrun hfair (fun n => detRst_eq_false_iff.mpr (henabled n)) 0 hleft

end Sys2Proof.Machine
end

section
/-! PROOFS of family 43_alignment: the six operations of an enabled search, when each is fetched and what it does (R124 to
R129). -/

namespace Sys2Proof.Machine

/-! ### When an operation is fetched -/

/-- The search is enabled: `rst_rx` = 0 and `align_enable` = 1. -/
abbrev AlignEnabled (s : State) : Prop :=
  s.inp.platform.rstRx = false ∧ s.inp.consumer.alignEnable = true

/-- The six rows of `ALIGN_SEL` with `X` = 0 and `N` = 0, each read from its operation (R73). -/
theorem alignPick_enabled_rows (a : AState) (zero m ovf : Bool) :
    (alignPick false false a zero m ovf = .alignLockedHold ↔ a = .locked) ∧
    (alignPick false false a zero m ovf = .alignMatch ↔ a = .search ∧ zero = true ∧ m = true) ∧
    (alignPick false false a zero m ovf = .alignCount ↔ a = .search ∧ zero = false ∧ ovf = false) ∧
    (alignPick false false a zero m ovf = .alignMiss ↔ a = .search ∧ zero = true ∧ m = false ∧ ovf = false) ∧
    (alignPick false false a zero m ovf = .alignMissOvf ↔ a = .search ∧ zero = true ∧ m = false ∧ ovf = true) ∧
    (alignPick false false a zero m ovf = .alignOvf ↔ a = .search ∧ zero = false ∧ ovf = true) := by
  cases a with
  | locked => simp [alignPick]
  | search => cases zero <;> cases m <;> cases ovf <;> simp [alignPick]

/-- The operation an enabled search fetches is the one that the remaining four bits pick. -/
theorem fetch_align_enabled_iff {s : State} (h : AlignEnabled s) (i : Instr) :
    fetch .align s = .ok i ↔
      alignPick false false s.align.astate (s.align.winCnt == 0) (framingMatch s)
        (s.align.errTmr == 2 ^ s.params.alignErrBits - 1) = i := by
  obtain ⟨hrst, henable⟩ := h
  rw [fetch_align, Except.ok.injEq, hrst, henable]
  rfl

/-- The match predicate by the two symbols (R121). -/
theorem framingMatch_eq_true_iff (s : State) :
    framingMatch s = true ↔
      s.inp.xcvr.rxRaw.slot0.extractLsb' 0 9 = s.params.startSym ∧
      s.inp.xcvr.rxRaw.slot1.extractLsb' 0 9 = s.params.commaSym := by
  simp [framingMatch, symbolOf]

/-! ### The operations -/

/-- Settles O22: the rows of the three operations, and their writes. -/
theorem alignOperationsWithoutRequest : Obligations.AlignOperationsWithoutRequest := by
  refine ⟨fun s hrst henable => ?_, fun s => ⟨_, rfl, rfl, rfl, rfl, rfl⟩, rfl, rfl⟩
  obtain ⟨hhold, hmatch, hcount, -, -, -⟩ := alignPick_enabled_rows s.align.astate (s.align.winCnt == 0)
    (framingMatch s) (s.align.errTmr == 2 ^ s.params.alignErrBits - 1)
  simp only [fetch_align_enabled_iff ⟨hrst, henable⟩, hhold, hmatch, hcount, beq_iff_eq, beq_eq_false_iff_ne,
    ne_eq, and_true]
  exact framingMatch_eq_true_iff s

/-- Settles O23: the rows of the three operations, and their writes, each toggle being one request. -/
theorem alignRequestOperations : Obligations.AlignRequestOperations := by
  refine ⟨fun s hrst henable => ?_, fun s => ⟨_, _, _, ?_, rfl, rfl, ?_, rfl, ?_, rfl, rfl⟩, rfl, rfl⟩
  · obtain ⟨-, -, -, hmiss, hmissOvf, hovf⟩ := alignPick_enabled_rows s.align.astate (s.align.winCnt == 0)
      (framingMatch s) (s.align.errTmr == 2 ^ s.params.alignErrBits - 1)
    simp only [fetch_align_enabled_iff ⟨hrst, henable⟩, hmiss, hmissOvf, hovf, beq_iff_eq, beq_eq_false_iff_ne,
      ne_eq, and_self]
  · rw [exec, execAlignMiss, toggleSlip_eq]; rfl
  · rw [exec, execAlignMissOvf, toggleSlip_eq, toggleInvert_eq]; rfl
  · rw [exec, execAlignOvf, toggleInvert_eq]; rfl

end Sys2Proof.Machine
end

section
/-! PROOFS of family 43_alignment: runs of an enabled search, one `rx` edge after another (R131 to R134). -/

namespace Sys2Proof.Machine

/-! ### What a run's steps keep -/

/-- A step that leaves the search enabled keeps it so. -/
theorem react_keepsAligning {e : Event} {s t : State} (he : keepsAligning e = true) (hs : AlignEnabled s)
    (h : react e s = .next t) : AlignEnabled t := by
  obtain ⟨hrst, henable⟩ := hs
  rw [AlignEnabled, (react_inp h).1]
  cases e with
  | tick d => exact ⟨hrst, henable⟩
  | transceiver p => exact ⟨hrst, henable⟩
  | consumer p => exact ⟨hrst, he⟩
  | platform p => exact ⟨Bool.not_eq_eq_eq_not.mp he, henable⟩

/-- The match predicate is that the raw words hold the pattern (R121). -/
theorem framingMatch_eq_isPattern (s : State) : framingMatch s = isPattern s.params s.inp.xcvr.rxRaw := rfl

/-- A step that does not present the pattern leaves it absent. -/
theorem react_presentsNoPattern {e : Event} {s t : State} (he : presentsNoPattern s.params e = true)
    (hs : framingMatch s = false) (h : react e s = .next t) : framingMatch t = false := by
  obtain ⟨hinp, hparams, -⟩ := react_inp h
  rw [framingMatch_eq_isPattern, hinp, hparams]
  cases e with
  | transceiver p => exact Bool.not_eq_eq_eq_not.mp he
  | tick d => exact hs
  | consumer p => exact hs
  | platform p => exact hs

/-- A step that is no `rx` edge keeps the alignment registers and the ghosts. -/
theorem react_rxView_of_ne {e : Event} {s t : State} (h : react e s = .next t) (he : e ≠ .tick .rx) :
    t.align = s.align ∧ t.ghost = s.ghost := by
  obtain ⟨halign, hghost⟩ := react_align h
  rw [if_neg he] at halign
  exact ⟨halign, by rw [hghost, halign, ghostNext_self]⟩

/-- An `rx` edge of an enabled search takes the alignment registers where the alignment table says. -/
theorem react_rx_enabled {s t : State} (h : react (.tick .rx) s = .next t) (hs : AlignEnabled s) :
    t.align = alignNext s.params false true (framingMatch s) s.align ∧ t.ghost = ghostNext s.align t.align s.ghost := by
  obtain ⟨hrst, henable⟩ := hs
  obtain ⟨halign, hghost⟩ := react_align h
  rw [if_pos rfl, hrst, henable] at halign
  exact ⟨halign, hghost⟩

/-- An unchanged `slip` makes no request (R130). -/
theorem ghostNext_slipReqCount_of_eq {a b : AlignRegs} (h : a.slip = b.slip) (g : Ghost) :
    (ghostNext a b g).slipReqCount = g.slipReqCount :=
  if_pos h

/-! ### A locked controller (R124, R125, R132) -/

/-- An enabled controller in LOCKED, or at a window edge that holds the pattern, is in LOCKED after the edge, its `slip` as
it was (R124, R125). -/
theorem alignNext_locked {p : Params} {m : Bool} {r : AlignRegs}
    (h : r.astate = .locked ∨ r.astate = .search ∧ r.winCnt = 0 ∧ m = true) :
    alignNext p false true m r =
      { r with astate := .locked, winCnt := (r.winCnt + 1) % 2 ^ p.alignWinBits, errTmr := 0 } := by
  obtain hlocked | ⟨hsearch, hwin, hm⟩ := h
  · simp [alignNext, hlocked]
  · simp [alignNext, hsearch, hwin, hm]

/-- An enabled search in LOCKED whose `slip` has the level `level` after `n` requests. -/
structure LockedWith (level : Bool) (n : Nat) (s : State) : Prop where
  enabled : AlignEnabled s
  locked : s.align.astate = .locked
  slip : s.align.slip = level
  requests : s.ghost.slipReqCount = n

/-- An `rx` edge in LOCKED, or at a window edge that holds the pattern, leads to LOCKED and makes no request. -/
theorem lockedWith_of_rx {s t : State} (hs : AlignEnabled s) (h : react (.tick .rx) s = .next t)
    (hlock : s.align.astate = .locked ∨ s.align.astate = .search ∧ s.align.winCnt = 0 ∧ framingMatch s = true) :
    LockedWith s.align.slip s.ghost.slipReqCount t := by
  obtain ⟨halign, hghost⟩ := react_rx_enabled h hs
  rw [alignNext_locked hlock] at halign
  have hslip : t.align.slip = s.align.slip := by rw [halign]
  exact ⟨react_keepsAligning rfl hs h, by rw [halign], hslip,
    by rw [hghost, ghostNext_slipReqCount_of_eq hslip.symm]⟩

/-- A locked controller stays so over every step that leaves the search enabled. -/
theorem LockedWith.react {level : Bool} {n : Nat} {e : Event} {s t : State} (he : keepsAligning e = true)
    (hs : LockedWith level n s) (h : react e s = .next t) : LockedWith level n t := by
  obtain ⟨henabled, hlocked, rfl, rfl⟩ := hs
  by_cases hrx : e = .tick .rx
  · subst hrx
    exact lockedWith_of_rx henabled h (.inl hlocked)
  · obtain ⟨halign, hghost⟩ := react_rxView_of_ne h hrx
    exact ⟨react_keepsAligning he henabled h, by rw [halign, hlocked], by rw [halign], by rw [hghost]⟩

/-- Settles O55: the first edge locks, and every allowed step keeps the lock. -/
theorem zeroOffsetLocksWithoutSlip : Obligations.ZeroOffsetLocksWithoutSlip := by
  intro es s hsearch hwin hrst henable hpattern hes
  obtain ⟨t₁, hedge⟩ := react_answers (.tick .rx) s
  obtain ⟨t, hrun⟩ := runEvents_answers es t₁
  have hfirst := lockedWith_of_rx ⟨hrst, henable⟩ hedge (.inr ⟨hsearch, hwin, hpattern⟩)
  have hlast := runEvents_keeps LockedWith.react es (List.all_eq_true.mp hes) hfirst hrun
  exact ⟨t₁, t, hedge, hrun, hfirst.locked, hlast.locked, hlast.slip, hlast.requests⟩

/-! ### An unmatched search (R126 to R129, R131, R134) -/

section Unmatched
variable {p : Params} {m : Bool} {r : AlignRegs} (hsearch : r.astate = .search) (hm : r.winCnt = 0 → m = false)
include hsearch hm

/-- A search whose window edge, if this is one, does not hold the pattern goes on: both counters advance, a window edge
toggles `slip` and a full error timer toggles `invert`. -/
theorem alignNext_unmatched :
    alignNext p false true m r =
      { r with
        winCnt := (r.winCnt + 1) % 2 ^ p.alignWinBits
        errTmr := (r.errTmr + 1) % 2 ^ p.alignErrBits
        slip := if r.winCnt = 0 then !r.slip else r.slip
        invert := if r.errTmr = 2 ^ p.alignErrBits - 1 then !r.invert else r.invert } := by
  have hno : ¬(r.winCnt = 0 ∧ m = true) := fun ⟨hwin, hmatch⟩ => by simp [hm hwin] at hmatch
  simp [alignNext, hsearch, hno]

/-- The requests such an edge makes: a slip at a window edge, an inversion where the error timer is full. -/
theorem ghostNext_unmatched (g : Ghost) :
    ghostNext r (alignNext p false true m r) g =
      { slipReqCount := g.slipReqCount + if r.winCnt = 0 then 1 else 0
        invertToggleCount := g.invertToggleCount + if r.errTmr = 2 ^ p.alignErrBits - 1 then 1 else 0 } := by
  rw [alignNext_unmatched hsearch hm, ghostNext, Ghost.mk.injEq]
  constructor
  · by_cases hwin : r.winCnt = 0 <;> simp [hwin]
  · by_cases hfull : r.errTmr = 2 ^ p.alignErrBits - 1 <;> simp [hfull]

end Unmatched

/-- `Nat.succ_div` with its condition as a remainder. -/
theorem succ_div_eq_add_ite_mod (n k : Nat) : (n + 1) / k = n / k + if (n + 1) % k = 0 then 1 else 0 := by
  simp only [Nat.succ_div, Nat.dvd_iff_mod_eq_zero]

/-- One window more is begun at each multiple of the window's length. -/
theorem windowsBegun_succ {W : Nat} (hW : 0 < W) (n : Nat) :
    (n + 1 + (W - 1)) / W = (n + (W - 1)) / W + if n % W = 0 then 1 else 0 := by
  have hend : n + (W - 1) + 1 = n + W := by omega
  rw [Nat.add_right_comm, succ_div_eq_add_ite_mod, hend, Nat.add_mod_right]

/-- One timer period more is complete at each edge that finds the timer at its last value. -/
theorem periodsDone_succ {E : Nat} (hE : 0 < E) (n : Nat) :
    (n + 1) / E = n / E + if n % E = E - 1 then 1 else 0 := by
  obtain ⟨k, rfl⟩ := Nat.exists_eq_add_one.mpr hE
  simp only [succ_div_eq_add_ite_mod, Nat.succ_mod_succ_eq_zero_iff, Nat.add_sub_cancel]

/-- A search `n` edges after its start, when the ghosts were `g`: both counters are `n` modulo their sizes, a slip was
requested for every window begun and an inversion for every full period of the error timer. -/
structure SearchedFor (p : Params) (g : Ghost) (n : Nat) (s : State) : Prop where
  params : s.params = p
  searching : s.align.astate = .search
  window : s.align.winCnt = n % 2 ^ p.alignWinBits
  timer : s.align.errTmr = n % 2 ^ p.alignErrBits
  slips : s.ghost.slipReqCount = g.slipReqCount + (n + (2 ^ p.alignWinBits - 1)) / 2 ^ p.alignWinBits
  inversions : s.ghost.invertToggleCount = g.invertToggleCount + n / 2 ^ p.alignErrBits

/-- A search starts after no edge. -/
theorem searchedFor_zero {s : State} (hsearch : s.align.astate = .search) (hwin : s.align.winCnt = 0)
    (herr : s.align.errTmr = 0) : SearchedFor s.params s.ghost 0 s := by
  have hnone : (0 + (2 ^ s.params.alignWinBits - 1)) / 2 ^ s.params.alignWinBits = 0 :=
    Nat.div_eq_of_lt (by have := Nat.two_pow_pos s.params.alignWinBits; omega)
  exact ⟨rfl, hsearch, by rw [hwin, Nat.zero_mod], by rw [herr, Nat.zero_mod], by rw [hnone, Nat.add_zero],
    by rw [Nat.zero_div, Nat.add_zero]⟩

/-- An `rx` edge that is no window edge with the pattern is one edge more of the search. -/
theorem SearchedFor.react_rx {p : Params} {g : Ghost} {n : Nat} {s t : State} (hs : SearchedFor p g n s)
    (henabled : AlignEnabled s) (hm : s.align.winCnt = 0 → framingMatch s = false)
    (h : react (.tick .rx) s = .next t) : SearchedFor p g (n + 1) t := by
  obtain ⟨rfl, hsearch, hwin, herr, hslips, hinversions⟩ := hs
  obtain ⟨halign, hghost⟩ := react_rx_enabled h henabled
  rw [halign, ghostNext_unmatched hsearch hm, hwin, herr, hslips, hinversions] at hghost
  rw [alignNext_unmatched hsearch hm] at halign
  refine ⟨(react_inp h).2.1, by rw [halign, hsearch], ?_, ?_, ?_, ?_⟩
  · rw [halign, hwin, Nat.mod_add_mod]
  · rw [halign, herr, Nat.mod_add_mod]
  · rw [hghost, windowsBegun_succ (Nat.two_pow_pos _), ← Nat.add_assoc]
  · rw [hghost, periodsDone_succ (Nat.two_pow_pos _), ← Nat.add_assoc]

/-- A step that is no `rx` edge is no edge of the search. -/
theorem SearchedFor.react_of_ne {p : Params} {g : Ghost} {n : Nat} {e : Event} {s t : State}
    (hs : SearchedFor p g n s) (he : e ≠ .tick .rx) (h : react e s = .next t) : SearchedFor p g n t := by
  obtain ⟨hparams, hsearch, hwin, herr, hslips, hinversions⟩ := hs
  obtain ⟨halign, hghost⟩ := react_rxView_of_ne h he
  rw [← halign] at hsearch hwin herr
  rw [← hghost] at hslips hinversions
  exact ⟨(react_inp h).2.1.trans hparams, hsearch, hwin, herr, hslips, hinversions⟩

/-- A run that leaves the search enabled and never presents the pattern adds its `rx` edges to the search's. -/
theorem SearchedFor.run {p : Params} {g : Ghost} {n : Nat} {es : List Event} {s t : State}
    (hs : SearchedFor p g n s) (henabled : AlignEnabled s) (habsent : framingMatch s = false)
    (haligning : ∀ e ∈ es, keepsAligning e = true) (hnoPattern : ∀ e ∈ es, presentsNoPattern p e = true)
    (h : runEvents es s = .next t) : SearchedFor p g (n + es.countP (isTick .rx)) t := by
  induction es generalizing n s with
  | nil => cases h; exact hs
  | cons e es ih =>
    obtain ⟨u, hu, hrun⟩ := runEvents_cons h
    obtain ⟨hkeeps, haligning'⟩ := List.forall_mem_cons.mp haligning
    obtain ⟨hpresents, hnoPattern'⟩ := List.forall_mem_cons.mp hnoPattern
    have henabled' := react_keepsAligning hkeeps henabled hu
    have habsent' := react_presentsNoPattern (hs.params ▸ hpresents) habsent hu
    have hrest {k : Nat} (hk : SearchedFor p g k u) : SearchedFor p g (k + es.countP (isTick .rx)) t :=
      ih hk henabled' habsent' haligning' hnoPattern' hrun
    by_cases hrx : e = .tick .rx
    · subst hrx
      rw [List.countP_cons_of_pos (isTick_iff.mpr rfl), Nat.add_left_comm, Nat.add_comm]
      exact hrest (hs.react_rx henabled (fun _ => habsent) hu)
    · rw [List.countP_cons_of_neg fun he => hrx (isTick_iff.mp he)]
      exact hrest (hs.react_of_ne hrx hu)

/-- Settles O53: the run's `rx` edges are all the edges of the search. -/
theorem searchNeverEndsUnmatched : Obligations.SearchNeverEndsUnmatched := by
  intro es s hsearch hwin herr hrst henable habsent haligning hnoPattern
  obtain ⟨t, hrun⟩ := runEvents_answers es s
  have hlast := (searchedFor_zero hsearch hwin herr).run ⟨hrst, henable⟩ habsent
    (List.all_eq_true.mp haligning) (List.all_eq_true.mp hnoPattern) hrun
  rw [Nat.zero_add] at hlast
  exact ⟨t, hrun, hlast.searching, hlast.window, hlast.timer, hlast.slips, hlast.inversions⟩

end Sys2Proof.Machine
end

section
/-! PROOFS of family 44_lane_interface: the two operations, each the equations of its own group of ports (R140 to R153). -/

namespace Sys2Proof.Machine

/-! ### The flags that test a register or a raw word -/

/-- `align_locked` is the LOCKED state (R143). -/
theorem alignLockedFlag_eq_decide (s : State) : alignLockedFlag s = decide (s.align.astate = .locked) :=
  beq_eq_decide _ _

/-- `det_valid` is the DONE state (R30). -/
theorem detValidFlag_eq_decide (s : State) : detValidFlag s = decide (s.det.dstate = .done) :=
  beq_eq_decide _ _

/-- Any word but the sentinel is valid (R90, R91). -/
theorem rawValid_eq_decide (p : Params) (raw : RawWord) : rawValid p raw = decide (raw ≠ p.sentinel) :=
  decide_not.symm

/-! ### The two operations -/

/-- LANE_STATUS shows the status group, and keeps the control ports (R152). -/
theorem exec_laneStatus (s : State) : exec .laneStatus s = .next (s.setOut (withStatusPorts s s.out)) := rfl

/-- LANE_CONTROL shows the control group, and keeps the status ports (R153). -/
theorem exec_laneControl (s : State) : exec .laneControl s = .next (s.setOut (withControlPorts s s.out)) := rfl

/-- Presenting output ports changes no other part of the state. -/
theorem setOut_frame (s : State) (v : OutPorts) : { s.setOut v with out := s.out } = s := rfl

/-- A slot's status ports are its own raw word's (R144). -/
theorem slotGet_withStatusPorts (s : State) (o : OutPorts) (slot : Slot) :
    slotGet (withStatusPorts s o).rxValid slot = decide (slotGet s.inp.xcvr.rxRaw slot ≠ s.params.sentinel) ∧
    slotGet (withStatusPorts s o).symbol slot = (slotGet s.inp.xcvr.rxRaw slot).extractLsb' 0 9 :=
  ⟨(slotGet_rxValidFlags s slot).trans (rawValid_eq_decide _ _), slotGet_symbolPorts s slot⟩

/-- Settles O24: each operation writes its own group, each port by its equation, and no other part of the state. -/
theorem laneOperations : Obligations.LaneOperations := by
  constructor
  · intro s
    exact ⟨_, exec_laneStatus s, rfl, rfl, rfl, alignLockedFlag_eq_decide s, slotGet_withStatusPorts s s.out,
      detValidFlag_eq_decide s, rfl, rfl, rfl, rfl, rfl, rfl, setOut_frame s _⟩
  · intro s
    exact ⟨_, exec_laneControl s, rfl, rfl, rfl, rfl, rfl, rfl, rfl, rfl, rfl, rfl, rfl, rfl, rfl, setOut_frame s _⟩

end Sys2Proof.Machine
end

section
/-! PROOFS of family 60_exceptions: the machine has no traps and no run ends (R160, R174). -/

namespace Sys2Proof.Machine

/-- Every operation's meaning is a total function of the state: none faults and none is refused (R160). -/
theorem exec_answers (i : Instr) (s : State) : ∃ t, exec i s = .next t := by
  cases i <;> exact ⟨_, rfl⟩

/-- Settles O10: every operation answers in every state, and so does every step. -/
theorem nothingEverStops : Obligations.NothingEverStops :=
  ⟨exec_answers, step_answers⟩

end Sys2Proof.Machine
end

section
/-! PROOFS of family other: the decoder, the encoder and the words of the two selector tables (R71 to R75). -/

namespace Sys2Proof.Machine

/-! ### Decoding one word -/

/-- A word that decodes fits its format's width. -/
theorem bits_lt_of_decode {sentinel : RawWord} {sel : SelWord} {i : Instr} (h : decode sentinel sel = .ok i) :
    sel.bits < 2 ^ formatWidth sel.format := by
  by_contra hwide
  rw [decode_tooWide (Nat.le_of_not_lt hwide)] at h
  cases h

/-- `SYNC_SEL` has one row (R74 (b)). -/
theorem decode_sync (sentinel : RawWord) (inst : SyncInst) (v : Bool) :
    decode sentinel ⟨.sync inst, v.toNat⟩ = .ok (.syncShift inst v) := by
  cases v <;> rfl

/-- A raw word's number is decoded as the raw word (R74 (a)). -/
theorem decode_svc_toNat (sentinel : RawWord) (slot : Slot) (raw : RawWord) :
    decode sentinel ⟨.svc slot, raw.toNat⟩ =
      .ok (if raw = sentinel then .svcInvalid slot else .svcValid slot raw) := by
  rw [decode_svc sentinel slot raw.isLt, decodeSvc_eq, BitVec.ofNat_toNat, BitVec.setWidth_eq]

/-- Settles O4: the checker's words by `decode_svc_toNat`, the wider numbers by their width, the shifts by their bit. -/
theorem checkerAndShiftSelectors : Obligations.CheckerAndShiftSelectors := by
  refine ⟨fun sentinel slot w hw => ?_, fun sentinel slot w hw => decode_tooWide hw, decode_sync, rfl⟩
  obtain ⟨raw, rfl⟩ : ∃ raw : RawWord, raw.toNat = w := ⟨BitVec.ofNat 10 w, Nat.mod_eq_of_lt hw⟩
  simp only [decode_svc_toNat, BitVec.toNat_inj, BitVec.ofNat_toNat, BitVec.setWidth_eq]

/-! ### The encoder -/

/-- The decoder reads every well-formed operation back from its own selector word. -/
theorem decode_encode {sentinel : RawWord} {i : Instr} (h : i.wf sentinel = true) :
    decode sentinel (encode sentinel i) = .ok i := by
  cases i with
  | syncShift inst v => exact decode_sync sentinel inst v
  | svcInvalid slot => exact (decode_svc_toNat sentinel slot sentinel).trans (by rw [if_pos rfl])
  | svcValid slot raw =>
    have hne : raw ≠ sentinel := bne_iff_ne.mp h
    exact (decode_svc_toNat sentinel slot raw).trans (by rw [if_neg hne])
  | _ => rw [encode]; rfl

/-- The format byte names its format, and is a byte other than 0. -/
theorem formatOfTag_formatTag (f : Format) :
    formatOfTag (formatTag f) = some f ∧ 0 < formatTag f ∧ formatTag f < 2 ^ 8 := by
  rcases f with (_ | _ | _ | _ | _) | (_ | _) | _ | _ | _ | _ <;> decide

/-- A tagged word of 24 bits stands for the selector word it was made of, if that has at most 16 bits. -/
theorem tableSelector_taggedWord {sel : SelWord} (h : sel.bits < 2 ^ 16) :
    tableSelector 24 (taggedWord sel) = some sel := by
  obtain ⟨htag, hpos, hbyte⟩ := formatOfTag_formatTag sel.format
  have hfits : taggedWord sel < 2 ^ 24 := by unfold taggedWord; omega
  have htop : taggedWord sel / 2 ^ 16 = formatTag sel.format := by unfold taggedWord; omega
  have hlow : taggedWord sel % 2 ^ 16 = sel.bits := by unfold taggedWord; omega
  rw [tableSelector, if_neg (Nat.not_le.mpr hfits), htop, if_neg hpos.ne', htag, hlow, Option.map_some]

/-- No format has more than 10 bits. -/
theorem formatWidth_le (f : Format) : formatWidth f ≤ 10 := by
  rcases f with _ | _ | _ | _ | _ | _ <;> simp [formatWidth]

/-- A number that stands for a selector word is read as this hardware's decoder reads that word. -/
theorem decodeTableWord_of_decode {nbits w : Nat} {sel : SelWord} {i : Instr} (hsel : tableSelector nbits w = some sel)
    (h : decode Config.hardware.sentinel sel = .ok i) : decodeTableWord nbits w = some i := by
  simp only [decodeTableWord, hsel, h]

/-- Settles O1: the encoded word decodes, so it fits its width, and the tagged word stands for it. -/
theorem decodeInvertsEncode : Obligations.DecodeInvertsEncode := by
  intro sentinel i hwf
  have hdecode := decode_encode hwf
  refine ⟨hdecode, ?_⟩
  rintro rfl
  have hfits : (encode Config.hardware.sentinel i).bits < 2 ^ 16 := by
    calc (encode Config.hardware.sentinel i).bits
      _ < 2 ^ formatWidth (encode Config.hardware.sentinel i).format := bits_lt_of_decode hdecode
      _ ≤ 2 ^ 10 := Nat.pow_le_pow_right (by decide) (formatWidth_le _)
      _ < 2 ^ 16 := by decide
  exact decodeTableWord_of_decode (tableSelector_taggedWord hfits) hdecode

/-- Settles O6: each word is looked up in its table. -/
theorem vectorWordsDecode : Obligations.VectorWordsDecode :=
  ⟨rfl, rfl, rfl, rfl, rfl, rfl, rfl, rfl⟩

/-! ### The rows of the two controllers' tables -/

/-- Two rows that fix different values of a bit that both look at. -/
abbrev RowsApart (r₁ r₂ : Row) : Prop := r₁.pattern &&& r₂.mask ≠ r₂.pattern &&& r₁.mask

/-- Rows of a table any two of which are apart: a word selects one of them at most. -/
theorem row_unique {rows : List Row} (hapart : ∀ r₁ ∈ rows, ∀ r₂ ∈ rows, r₁ = r₂ ∨ RowsApart r₁ r₂) (w : BitVec 6)
    (r₁ r₂ : Row) (hr₁ : r₁ ∈ rows) (hr₂ : r₂ ∈ rows) (h₁ : w &&& r₁.mask = r₁.pattern)
    (h₂ : w &&& r₂.mask = r₂.pattern) : r₁ = r₂ := by
  refine (hapart r₁ hr₁ r₂ hr₂).resolve_right fun happart => happart ?_
  rw [← h₁, ← h₂, BitVec.and_assoc, BitVec.and_assoc, BitVec.and_comm r₁.mask]

theorem rxdetRows_apart : ∀ r₁ ∈ rxdetRows, ∀ r₂ ∈ rxdetRows, r₁ = r₂ ∨ RowsApart r₁ r₂ := by decide

theorem alignRows_apart : ∀ r₁ ∈ alignRows, ∀ r₂ ∈ alignRows, r₁ = r₂ ∨ RowsApart r₁ r₂ := by decide

theorem rowSelects_iff {w : BitVec 6} {r : Row} : rowSelects w r = true ↔ w &&& r.mask = r.pattern := beq_iff_eq

/-- In a table whose rows are apart a word is looked up as the operation of the row that it selects. -/
theorem lookupRow_eq_some_iff {rows : List Row}
    (hapart : ∀ r₁ ∈ rows, ∀ r₂ ∈ rows, r₁ = r₂ ∨ RowsApart r₁ r₂) (w : BitVec 6) (i : Instr) :
    lookupRow rows w = some i ↔ ∃ r ∈ rows, r.instr = i ∧ w &&& r.mask = r.pattern := by
  rw [lookupRow, Option.map_eq_some_iff]
  constructor
  · rintro ⟨r, hfind, hi⟩
    exact ⟨r, List.mem_of_find?_eq_some hfind, hi, rowSelects_iff.mp (List.find?_some hfind)⟩
  · rintro ⟨r, hr, hi, hw⟩
    obtain ⟨r', hfind⟩ : ∃ r', rows.find? (rowSelects w) = some r' :=
      Option.isSome_iff_exists.mp (List.find?_isSome.mpr ⟨r, hr, rowSelects_iff.mpr hw⟩)
    have hsame : r' = r := row_unique hapart w r' r (List.mem_of_find?_eq_some hfind) hr
      (rowSelects_iff.mp (List.find?_some hfind)) hw
    exact ⟨r, hsame ▸ hfind, hi⟩

/-- The rows of a controller's selector table. -/
def controllerRows : Format → List Row
  | .rxdet => rxdetRows
  | .align => alignRows
  | _ => []

/-- A controller's word decodes where it fits 6 bits and its table has a row for it. -/
theorem decode_controller_ok_iff (sentinel : RawWord) {f : Format} (hf : f = .rxdet ∨ f = .align) (w : Nat)
    (i : Instr) :
    decode sentinel ⟨f, w⟩ = .ok i ↔ w < 64 ∧ lookupRow (controllerRows f) (BitVec.ofNat 6 w) = some i := by
  have hwidth : 2 ^ formatWidth f = 64 := by obtain rfl | rfl := hf <;> rfl
  by_cases hw : w < 64
  · have hfits : ¬2 ^ formatWidth f ≤ w := by omega
    simp only [decode, if_neg hfits, hw, true_and]
    obtain rfl | rfl := hf
    · cases hrow : lookupRow rxdetRows (BitVec.ofNat 6 w) <;> simp [controllerRows, hrow]
    · cases hrow : lookupRow alignRows (BitVec.ofNat 6 w) <;> simp [controllerRows, hrow]
  · have hwide : 2 ^ formatWidth f ≤ w := by omega
    simp [decode_tooWide (sel := ⟨f, w⟩) hwide, hw]

/-! ### The bits of the two selector words -/

/-- The fields of `RXDET_SEL` (R71). -/
theorem rxdetWord_fields (r z d : Bool) (c : BitVec 3) :
    (BitVec.ofBool r ++ c ++ BitVec.ofBool z ++ BitVec.ofBool d).getLsbD 5 = r ∧
    (BitVec.ofBool r ++ c ++ BitVec.ofBool z ++ BitVec.ofBool d).extractLsb' 2 3 = c ∧
    (BitVec.ofBool r ++ c ++ BitVec.ofBool z ++ BitVec.ofBool d).getLsbD 1 = z ∧
    (BitVec.ofBool r ++ c ++ BitVec.ofBool z ++ BitVec.ofBool d).getLsbD 0 = d := by
  revert c
  cases r <;> cases z <;> cases d <;> decide

/-- The fields of `ALIGN_SEL` (R73). -/
theorem alignWord_fields (x n w m o : Bool) (a : BitVec 1) :
    let sel := BitVec.ofBool x ++ BitVec.ofBool n ++ a ++ BitVec.ofBool w ++ BitVec.ofBool m ++ BitVec.ofBool o
    sel.getLsbD 5 = x ∧ sel.getLsbD 4 = n ∧ sel.extractLsb' 3 1 = a ∧ sel.getLsbD 2 = w ∧ sel.getLsbD 1 = m ∧
      sel.getLsbD 0 = o := by
  revert a
  cases x <;> cases n <;> cases w <;> cases m <;> cases o <;> decide

/-- A word with another code than 7, or with `R` = 1, has a row (R71). -/
theorem rxdetRows_cover :
    ∀ w : BitVec 6, w.extractLsb' 2 3 ≠ 7 ∨ w.getLsbD 5 = true → ∃ r ∈ rxdetRows, w &&& r.mask = r.pattern := by
  decide

/-- Every word has a row (R73). -/
theorem alignRows_cover : ∀ w : BitVec 6, ∃ r ∈ alignRows, w &&& r.mask = r.pattern := by decide

/-- Settles O2: the word's fields, and the table's rows apart and covering. -/
theorem detectSelectorFollowsItsTable : Obligations.DetectSelectorFollowsItsTable := by
  refine ⟨⟨rfl, rfl, rfl, rfl, rfl, rfl, rfl⟩, fun s => ?_, fun sentinel w i => ?_, row_unique rxdetRows_apart,
    rxdetRows_cover⟩
  · obtain ⟨hrst, hcode, hzero, hdone⟩ :=
      rxdetWord_fields (detRst s) (s.det.dtimer == 0) (doneS s) (dstateCode s.det.dstate)
    exact ⟨hrst, hcode, hzero.trans (beq_eq_decide _ _), hdone, rfl⟩
  · rw [decode_controller_ok_iff sentinel (.inl rfl), controllerRows, lookupRow_eq_some_iff rxdetRows_apart]

/-- Settles O3: the word's fields, and the table's rows apart and covering. -/
theorem alignSelectorFollowsItsTable : Obligations.AlignSelectorFollowsItsTable := by
  refine ⟨⟨rfl, rfl⟩, fun s => ?_, fun sentinel w i => ?_, row_unique alignRows_apart, alignRows_cover, by decide⟩
  · obtain ⟨hrst, hdisable, hcode, hwin, hmatch, hfull⟩ :=
      alignWord_fields s.inp.platform.rstRx (!s.inp.consumer.alignEnable) (s.align.winCnt == 0) (framingMatch s)
        (s.align.errTmr == errTop s.params) (astateCode s.align.astate)
    exact ⟨hrst, hdisable, hcode, hwin.trans (beq_eq_decide _ _), hmatch, hfull.trans (beq_eq_decide _ _), rfl⟩
  · rw [decode_controller_ok_iff sentinel (.inr rfl), controllerRows, lookupRow_eq_some_iff alignRows_apart]

/-! ### The unused detect code (R75 (a)) -/

/-- An `RXDET_SEL` word without a row is refused by name. -/
theorem decode_rxdet_reserved_iff (sentinel : RawWord) {w : Nat} (hw : w < 64) :
    decode sentinel ⟨.rxdet, w⟩ = .error .reservedDetectCode ↔ lookupRow rxdetRows (BitVec.ofNat 6 w) = none := by
  have hfits : ¬2 ^ formatWidth .rxdet ≤ w := Nat.not_le.mpr hw
  simp only [decode, if_neg hfits]
  cases lookupRow rxdetRows (BitVec.ofNat 6 w) <;> simp

/-- The words without a row are those with `R` = 0 and code 7. -/
theorem lookupRow_rxdetRows_eq_none_iff :
    ∀ w < 64, lookupRow rxdetRows (BitVec.ofNat 6 w) = none ↔ w / 4 % 8 = 7 ∧ w / 32 = 0 := by decide

/-- Settles O5: the refused words are those without a row, and the words of all states decode. -/
theorem unusedDetectCodeIsRefused : Obligations.UnusedDetectCodeIsRefused := by
  refine ⟨fun sentinel w hw => (decode_rxdet_reserved_iff sentinel hw).trans (lookupRow_rxdetRows_eq_none_iff w hw),
    fun s hreserved => ?_⟩
  have hfetch := fetch_rxdet s
  rw [fetch, hreserved] at hfetch
  cases hfetch

end Sys2Proof.Machine
end

section
/-! PROOFS of family other: the invariants of the two controllers, over their state tables (R115, R131). -/

namespace Sys2Proof.Machine

/-! ### The detect registers -/

/-- `DetConsistent` is about the detect registers alone. -/
abbrev RegsConsistent (r : DetRegs) : Prop :=
  (r.pcieDetEn = true ↔ r.dstate ≠ .start) ∧ (r.pcieCt = true ↔ r.dstate = .setStrobeH) ∧
  (r.dstate = .setStrobeL ∨ r.dstate = .waitDoneL ∨ r.dstate = .waitDoneH ∨ r.dstate = .done → r.dtimer = 0)

theorem detConsistent_iff (s : State) : DetConsistent s ↔ RegsConsistent s.det := Iff.rfl

/-- The detect table keeps the agreement, state by state; SET_STROBE_L is entered with the timer at 0. -/
theorem detNext_consistent {r : DetRegs} (h : RegsConsistent r) (p : Params) (rst done con : Bool) :
    RegsConsistent (detNext p rst done con r) := by
  obtain ⟨hen, hct, hzero⟩ := h
  unfold RegsConsistent
  cases rst with
  | true => simp [detNext]
  | false =>
    cases hd : r.dstate with
    | start | setDetectH | setStrobeH => by_cases hz : r.dtimer = 0 <;> simp_all [detNext]
    | setStrobeL => simp_all [detNext]
    | waitDoneL | waitDoneH | done => cases done <;> simp_all [detNext]

/-- Settles O43: a `tx` edge follows the detect table, and every other step keeps the registers. -/
theorem stepKeepsDetectRegisters : Obligations.StepKeepsDetectRegisters := by
  intro s t hs hstep
  rw [detConsistent_iff] at hs ⊢
  by_cases he : nextEvent s = .tick .tx
  · rw [step_det_of_tx hstep he]
    exact detNext_consistent hs _ _ _ _
  · rwa [step_det_of_ne hstep he]

/-! ### The alignment counters -/

/-- `SearchCounters` is about the alignment registers and the two widths. -/
abbrev CountersTogether (p : Params) (r : AlignRegs) : Prop :=
  r.winCnt < 2 ^ p.alignWinBits ∧ r.errTmr < 2 ^ p.alignErrBits ∧
  (r.astate = .search →
    r.errTmr % 2 ^ min p.alignWinBits p.alignErrBits = r.winCnt % 2 ^ min p.alignWinBits p.alignErrBits) ∧
  (r.astate = .locked → r.errTmr = 0)

theorem searchCounters_iff (s : State) : SearchCounters s ↔ CountersTogether s.params s.align := Iff.rfl

/-- Two counters that agree modulo a size which divides both of theirs still do after both advance. -/
theorem succ_mod_eq_of_mod_eq {a b m k l : ℕ} (h : a % m = b % m) (hk : m ∣ k) (hl : m ∣ l) :
    (a + 1) % k % m = (b + 1) % l % m := by
  rw [Nat.mod_mod_of_dvd _ hk, Nat.mod_mod_of_dvd _ hl]
  exact Nat.ModEq.add_right 1 h

/-- The alignment table keeps the counters together: a restart sets both to 0, a search advances both, and LOCKED holds the
error timer at 0. -/
theorem alignNext_together {p : Params} {r : AlignRegs} (h : CountersTogether p r) (rst enable m : Bool) :
    CountersTogether p (alignNext p rst enable m r) := by
  obtain ⟨-, -, hsearch, -⟩ := h
  have hwindow : (r.winCnt + 1) % 2 ^ p.alignWinBits < 2 ^ p.alignWinBits := Nat.mod_lt _ (Nat.two_pow_pos _)
  have htimer : (r.errTmr + 1) % 2 ^ p.alignErrBits < 2 ^ p.alignErrBits := Nat.mod_lt _ (Nat.two_pow_pos _)
  cases rst with
  | true => simp [CountersTogether, alignNext]
  | false =>
    cases enable with
    | false => simp [CountersTogether, alignNext]
    | true =>
      by_cases hlock : r.astate = .locked ∨ r.astate = .search ∧ r.winCnt = 0 ∧ m = true
      · rw [alignNext_locked hlock]
        exact ⟨hwindow, Nat.two_pow_pos _, nofun, fun _ => rfl⟩
      · obtain ⟨hnotLocked, hmatch⟩ := not_or.mp hlock
        have ha : r.astate = .search := by
          cases ha : r.astate with
          | search => rfl
          | locked => exact absurd ha hnotLocked
        rw [alignNext_unmatched ha fun hwin0 => by simpa [ha, hwin0] using hmatch]
        exact ⟨hwindow, htimer, fun _ => succ_mod_eq_of_mod_eq (hsearch ha) (pow_dvd_pow 2 (min_le_right _ _))
          (pow_dvd_pow 2 (min_le_left _ _)), fun hlocked => absurd (ha.symm.trans hlocked) nofun⟩

/-- Settles O44: an `rx` edge follows the alignment table, and every other step keeps the registers. -/
theorem stepKeepsSearchCounters : Obligations.StepKeepsSearchCounters := by
  intro s t hs hstep
  rw [searchCounters_iff] at hs ⊢
  rw [(step_inp hstep).2]
  by_cases he : nextEvent s = .tick .rx
  · rw [step_align_of_rx hstep he]
    exact alignNext_together hs _ _ _
  · rwa [step_align_of_ne hstep he]

/-- In a search whose counters run together no window edge finds the error timer at its last value: the one is even there,
the other odd (R131). -/
theorem errTmr_ne_top_of_window_edge {p : Params} {r : AlignRegs} (h : CountersTogether p r) (hW : 0 < p.alignWinBits)
    (hE : 0 < p.alignErrBits) (hsearch : r.astate = .search) (hwin : r.winCnt = 0) :
    r.errTmr ≠ 2 ^ p.alignErrBits - 1 := by
  obtain ⟨-, -, htogether, -⟩ := h
  have hsize : 2 ∣ 2 ^ min p.alignWinBits p.alignErrBits := dvd_pow_self 2 (by omega)
  have heven : 2 ∣ r.errTmr := by
    have hzero : r.errTmr % 2 ^ min p.alignWinBits p.alignErrBits = 0 := by rw [htogether hsearch, hwin, Nat.zero_mod]
    exact hsize.trans (Nat.dvd_of_mod_eq_zero hzero)
  have hpow : 2 ∣ 2 ^ p.alignErrBits := dvd_pow_self 2 hE.ne'
  have hpos := Nat.two_pow_pos p.alignErrBits
  omega

/-- Where the alignment table toggles `slip` and `invert` together without `rst_rx`, a search stands at a window edge with a
full error timer. -/
theorem alignNext_toggles_both {p : Params} {enable m : Bool} {r : AlignRegs}
    (hslip : (alignNext p false enable m r).slip ≠ r.slip) (hinvert : (alignNext p false enable m r).invert ≠ r.invert) :
    r.astate = .search ∧ r.winCnt = 0 ∧ r.errTmr = 2 ^ p.alignErrBits - 1 := by
  cases enable with
  | false => simp [alignNext] at hslip
  | true =>
    cases ha : r.astate with
    | locked => simp [alignNext, ha] at hslip
    | search =>
      by_cases hmatch : r.winCnt = 0 ∧ m = true
      · simp [alignNext, ha, hmatch] at hslip
      · by_cases hwin : r.winCnt = 0
        · by_cases hfull : r.errTmr = 2 ^ p.alignErrBits - 1
          · exact ⟨rfl, hwin, hfull⟩
          · simp [alignNext, ha, hmatch, hfull] at hinvert
        · simp [alignNext, ha, hwin] at hslip

/-- ALIGN_MISS_OVF is picked in a search at a window edge with a full error timer only (R127). -/
theorem alignPick_missOvf {rst disable zero m ovf : Bool} {a : AState}
    (h : alignPick rst disable a zero m ovf = .alignMissOvf) : a = .search ∧ zero = true ∧ ovf = true := by
  cases rst with
  | true => cases h
  | false =>
    cases disable with
    | true => cases h
    | false =>
      obtain ⟨-, -, -, -, hmissOvf, -⟩ := alignPick_enabled_rows a zero m ovf
      obtain ⟨ha, hzero, -, hovf⟩ := hmissOvf.mp h
      exact ⟨ha, hzero, hovf⟩

/-- Settles O46: either case needs a window edge with a full error timer. -/
theorem missWithOverflowIsUnreachable : Obligations.MissWithOverflowIsUnreachable := by
  intro s hs hW hE
  have hnever := errTmr_ne_top_of_window_edge ((searchCounters_iff s).mp hs) hW hE
  constructor
  · intro hfetch
    rw [fetch_align, Except.ok.injEq] at hfetch
    obtain ⟨hsearch, hwin, hfull⟩ := alignPick_missOvf hfetch
    exact hnever hsearch (beq_iff_eq.mp hwin) (beq_iff_eq.mp hfull)
  · intro t hstep hrst
    by_cases he : nextEvent s = .tick .rx
    · by_contra hboth
      rw [not_or, step_align_of_rx hstep he, hrst] at hboth
      obtain ⟨hslip, hinvert⟩ := hboth
      obtain ⟨hsearch, hwin, hfull⟩ := alignNext_toggles_both hslip hinvert
      exact hnever hsearch hwin hfull
    · exact .inl (by rw [step_align_of_ne hstep he])

/-! ### The lock -/

/-- Only a reset or a disabled search takes the alignment table out of LOCKED (R135). -/
theorem alignNext_leaves_locked {p : Params} {rst enable m : Bool} {r : AlignRegs} (h : r.astate = .locked)
    (hleft : (alignNext p rst enable m r).astate ≠ .locked) : rst = true ∨ enable = false := by
  by_contra hkept
  simp only [not_or, Bool.not_eq_true, Bool.not_eq_false] at hkept
  obtain ⟨rfl, rfl⟩ := hkept
  exact hleft (by rw [alignNext_locked (.inl h)])

/-- Settles O38: a step that changes the alignment state is an `rx` edge, and follows the alignment table. -/
theorem lockedIsLeftOnlyByReset : Obligations.LockedIsLeftOnlyByReset := by
  intro s t hstep hlocked hleft
  have he : nextEvent s = .tick .rx := by
    by_contra he
    exact hleft (by rw [step_align_of_ne hstep he, hlocked])
  rw [step_align_of_rx hstep he] at hleft
  exact ⟨he, alignNext_leaves_locked hlocked hleft⟩

end Sys2Proof.Machine
end

section
/-! PROOFS of family other: a step of the machine, its resets, its ports and the order of pending steps (R56, R140 to R153,
R180, R181). -/

namespace Sys2Proof.Machine

/-! ### No step of an agent reads what is pending -/

theorem controlled_setPending (d : Domain) (s : State) (es : List Event) :
    controlled d (s.setPending es) = (controlled d s).setPending es := by
  cases d <;> rfl

theorem shiftAll_setPending (p : InPorts) (is : List SyncInst) (s : State) (es : List Event) :
    shiftAll p is (s.setPending es) = (shiftAll p is s).setPending es := by
  induction is generalizing s with
  | nil => rfl
  | cons i is ih => exact ih (shiftSync i (sourceValue p i) s)

/-- A step of an agent leads to the same state but for the list of pending steps, whatever that list is. -/
theorem react_setPending (e : Event) (s : State) (es : List Event) :
    react e (s.setPending es) = andThen (react e s) fun t => .next (t.setPending es) := by
  cases he : isDrive e with
  | true => rw [react_drive_eq he, react_drive_eq he]; rfl
  | false =>
    cases e with
    | tick d =>
      rw [react_tick, react_tick, edge_eq, edge_eq, controlled_setPending, shiftAll_setPending]
      simp only [andThen_next, settle_eq]
      rfl
    | transceiver p => cases he
    | consumer p => cases he
    | platform p => cases he

/-- The machine's next step is the first of the pending ones. -/
theorem step_of_pending {s : State} {e : Event} {es : List Event} (h : s.pending = e :: es) :
    step s = react e (s.setPending es) := by
  obtain ⟨hnext, hconsume⟩ := nextEvent_cons h
  rw [step, hnext, hconsume]

/-- A run's first step, where it answers. -/
theorem run_succ_of_step {M : Host.Core} {s t : M.State} (h : M.step s = .next t) (k : ℕ) :
    M.run (k + 1) s = M.run k t := by
  rw [Host.Core.run, h]

/-- Settles O11, by induction on the pending steps that run. -/
theorem pendingStepsRunInOrder : Obligations.PendingStepsRunInOrder := by
  intro es rest s hpending
  induction es generalizing s with
  | nil => exact congrArg Host.Outcome.next (by rw [← show s.pending = rest from hpending])
  | cons e es ih =>
    obtain ⟨t, ht⟩ := react_answers e s
    have hreact (l : List Event) : react e (s.setPending l) = .next (t.setPending l) := by
      rw [react_setPending, ht, andThen_next]
    have hstep : core.step s = .next (t.setPending (es ++ rest)) := (step_of_pending hpending).trans (hreact _)
    have hrun : runEvents (e :: es) (s.setPending rest) = runEvents es (t.setPending rest) := by
      rw [runEvents, hreact rest, andThen_next]
    exact (run_succ_of_step hstep es.length).trans ((ih _ rfl).trans hrun.symm)

/-! ### The resets (R180, R181) -/

/-- At an edge of a synchronizer's domain the second stage takes the first's old value. -/
theorem step_q2 {s t : State} {d : Domain} (h : step s = .next t) (he : nextEvent s = .tick d) {i : SyncInst}
    (hd : destDomain s.params i = d) : (syncGet t.sync i).q2 = (syncGet s.sync i).q1 := by
  have hedge : react (.tick d) (consumeEvent s) = .next t := he ▸ h
  rw [react_edge_q2 (by rw [consumeEvent_params, hd]) hedge, consumeEvent_sync]

/-- At an edge a synchronizer of another domain keeps its registers. -/
theorem step_sync_of_other_domain {s t : State} {d : Domain} (h : step s = .next t) (he : nextEvent s = .tick d)
    (i : SyncInst) (hd : destDomain s.params i ≠ d) : syncGet t.sync i = syncGet s.sync i :=
  step_sync_of_ne h fun he' => hd (Event.tick.inj (he'.symm.trans he))

/-- The detect table under its reset condition (R102). -/
theorem detNext_reset (p : Params) (done con : Bool) (r : DetRegs) :
    detNext p true done con r =
      { dstate := .start, dtimer := p.detHoldLoad, pcieDetEn := false, pcieCt := false, detStatus := r.detStatus } :=
  rfl

/-- The alignment table under `rst_rx` (R122). -/
theorem alignNext_reset (p : Params) (enable m : Bool) (r : AlignRegs) :
    alignNext p true enable m r = { astate := .search, winCnt := 0, errTmr := 0, slip := false, invert := false } :=
  rfl

/-- The alignment table without `rst_rx` where the search is disabled (R123). -/
theorem alignNext_disabled (p : Params) (m : Bool) (r : AlignRegs) :
    alignNext p false false m r = { r with astate := .search, winCnt := 0, errTmr := 0 } :=
  rfl

/-- The ghosts count each level that a reset lets fall (R189). -/
theorem ghostNext_falling {r r' : AlignRegs} (g : Ghost) (hslip : r'.slip = false) (hinvert : r'.invert = false) :
    ghostNext r r' g =
      { slipReqCount := g.slipReqCount + r.slip.toNat, invertToggleCount := g.invertToggleCount + r.invert.toNat } := by
  rw [ghostNext, hslip, hinvert, Ghost.mk.injEq]
  exact ⟨by cases r.slip <;> rfl, by cases r.invert <;> rfl⟩

/-- Registers that keep both levels count nothing. -/
theorem ghostNext_of_levels_eq {r r' : AlignRegs} (g : Ghost) (hslip : r.slip = r'.slip)
    (hinvert : r.invert = r'.invert) : ghostNext r r' g = g := by
  rw [ghostNext, if_pos hslip, if_pos hinvert]

/-- Settles O29: each reset is a row of its controller's table, and an edge leaves the other domains' parts alone. -/
theorem resetsActOnOneComponent : Obligations.ResetsActOnOneComponent := by
  refine ⟨fun s he hrst => ?_, fun s he hrst => ?_, fun s he hrst hdisable => ?_⟩ <;>
    obtain ⟨t, hstep⟩ := step_answers s
  · have hdet := step_det_of_tx hstep he
    have halign : t.align = s.align := step_align_of_ne hstep (by simp [he])
    have hghost : t.ghost = s.ghost := by rw [step_ghost hstep, halign, ghostNext_self]
    rw [detRst_eq_true_iff.mpr hrst, detNext_reset] at hdet
    exact ⟨t, hstep, hdet, halign, hghost, step_sync_of_other_domain hstep he, fun _ => step_q2 hstep he⟩
  · have halign := step_align_of_rx hstep he
    rw [hrst, alignNext_reset] at halign
    have hghost : t.ghost = _ := (step_ghost hstep).trans
      (ghostNext_falling s.ghost (by rw [halign]) (by rw [halign]))
    exact ⟨t, hstep, halign, by rw [hghost], by rw [hghost], step_det_of_ne hstep (by simp [he]),
      step_sync_of_other_domain hstep he⟩
  · have halign := step_align_of_rx hstep he
    rw [hrst, hdisable, alignNext_disabled] at halign
    have hghost : t.ghost = s.ghost := (step_ghost hstep).trans
      (ghostNext_of_levels_eq s.ghost (by rw [halign]) (by rw [halign]))
    exact ⟨t, hstep, halign, hghost, step_det_of_ne hstep (by simp [he]), step_sync_of_other_domain hstep he⟩

/-- ALIGN_RESET and ALIGN_DISABLE are picked by their selector bits only (R122, R123). -/
theorem alignPick_reset_iff (rst disable : Bool) (a : AState) (zero m ovf : Bool) :
    (alignPick rst disable a zero m ovf = .alignReset ↔ rst = true) ∧
    (alignPick rst disable a zero m ovf = .alignDisable ↔ rst = false ∧ disable = true) := by
  cases rst with
  | true => simp [alignPick]
  | false =>
    cases disable with
    | true => simp [alignPick]
    | false => cases a <;> cases zero <;> cases m <;> cases ovf <;> simp [alignPick]

/-- Settles O20: the reset's row, and its writes with what the two ghosts count. -/
theorem alignResetOperation : Obligations.AlignResetOperation := by
  refine ⟨fun s => ?_, fun s => ⟨_, rfl, ?_, rfl⟩⟩
  · rw [fetch_align, Except.ok.injEq]
    exact (alignPick_reset_iff _ _ _ _ _ _).1
  · rw [driveSlip_eq, driveInvert_eq]
    cases s.align.slip <;> cases s.align.invert <;> rfl

/-- Settles O21: the row of a disabled search, and its writes. -/
theorem alignDisableOperation : Obligations.AlignDisableOperation := by
  refine ⟨fun s => ?_, fun s => ⟨_, rfl, rfl, rfl⟩⟩
  rw [fetch_align, Except.ok.injEq, (alignPick_reset_iff _ _ _ _ _ _).2, Bool.not_eq_eq_eq_not, Bool.not_true]

/-- A restarted search fetches ALIGN_MATCH or ALIGN_MISS, by the pattern (R125, R126, R192). -/
theorem fetch_align_of_restarted {s : State} (henabled : AlignEnabled s) (hE : 0 < s.params.alignErrBits)
    (hsearch : s.align.astate = .search) (hwin : s.align.winCnt = 0) (herr : s.align.errTmr = 0) :
    fetch .align s = .ok (if framingMatch s then .alignMatch else .alignMiss) := by
  have hnotFull : 0 ≠ 2 ^ s.params.alignErrBits - 1 := by
    have := Nat.one_lt_two_pow hE.ne'
    omega
  rw [fetch_align_enabled_iff henabled, hsearch, hwin, herr, beq_eq_false_iff_ne.mpr hnotFull]
  rfl

/-- Settles O56: the edge restarts the search, and the consumer's step enables it. -/
theorem restartKeepsPhase : Obligations.RestartKeepsPhase := by
  intro s t₁ t₂ c hE hrst hdisable hc hedge hdrive
  obtain ⟨hinp₁, hparams₁⟩ := react_tick_inp hedge
  obtain ⟨hinp₂, hparams₂, -⟩ := react_inp hdrive
  rw [hinp₁] at hinp₂
  rw [hparams₁] at hparams₂
  have halign : t₂.align = { s.align with astate := .search, winCnt := 0, errTmr := 0 } := by
    rw [(react_rxView_of_ne hdrive nofun).1, (react_align hedge).1, if_pos rfl, hrst, hdisable, alignNext_disabled]
  have henabled : AlignEnabled t₂ := by rw [AlignEnabled, hinp₂]; exact ⟨hrst, hc⟩
  have hmatch : framingMatch t₂ = isPattern s.params s.inp.xcvr.rxRaw := by
    rw [framingMatch_eq_isPattern, hinp₂, hparams₂]; rfl
  refine ⟨halign, ?_⟩
  rw [fetch_align_of_restarted henabled (by rwa [hparams₂]) (by rw [halign]) (by rw [halign]) (by rw [halign]), hmatch]

/-! ### The ports (R140 to R151) -/

/-- Settles O30: the outputs have settled to their equations. -/
theorem portsShowTheirEquations : Obligations.PortsShowTheirEquations := by
  intro s
  obtain ⟨t, hstep⟩ := step_answers s
  refine ⟨t, hstep, ?_⟩
  rw [react_out hstep]
  exact ⟨rfl, rfl, rfl, alignLockedFlag_eq_decide t, rfl, detValidFlag_eq_decide t, rfl, rfl, rfl, rfl, rfl⟩

/-! ### Power-on (R182) -/

/-- Settles O41: the power-on state by its parts. -/
theorem powerOnValues : Obligations.PowerOnValues :=
  ⟨fun _ _ _ => ⟨rfl, rfl, rfl, rfl⟩, Syncs.zero, false, rfl⟩

/-- At power-on the registers hold their reset values, so the invariants hold part by part. -/
theorem inv_powerOn {p : Params} (h : p.wf = true) (v : Syncs) (b : Bool) : Inv (State.powerOn p v b) := by
  have hdet : DetConsistent (State.powerOn p v b) := by simp [DetConsistent, State.powerOn]
  have hcounters : SearchCounters (State.powerOn p v b) :=
    ⟨Nat.two_pow_pos _, Nat.two_pow_pos _, fun _ => rfl, fun _ => rfl⟩
  exact ⟨hdet, hcounters, ⟨rfl, rfl⟩, rfl, h⟩

/-- Settles O42: this hardware's parameters are well formed, and its state after reset is a power-on state. -/
theorem invariantsHoldAtPowerOn : Obligations.InvariantsHoldAtPowerOn :=
  ⟨fun _ v b h => inv_powerOn h v b, inv_powerOn (by decide) Syncs.zero false⟩

/-! ### The hold load (R195) -/

/-- The hold load is the upper integer part of 120 by the tick period. -/
theorem holdLoadFor_eq_ceilDiv (T : ℕ) : holdLoadFor T = 120 ⌈/⌉ T := rfl

/-- From 8 ns on the hold load fits the timer. -/
theorem holdLoadFor_lt {T : ℕ} (h : 8 ≤ T) : holdLoadFor T < 2 ^ 4 := by
  have hle : holdLoadFor T ≤ 15 := by
    rw [holdLoadFor_eq_ceilDiv, ceilDiv_le_iff_le_mul (by omega)]
    omega
  omega

/-- Settles O60: the least number of ticks by the laws of the upper integer part, which fits the timer. -/
theorem holdLoadKeepsTheHold : Obligations.HoldLoadKeepsTheHold := by
  refine ⟨fun T hT => ⟨?_, fun n hn => ?_⟩, fun T hT => ⟨Nat.mod_eq_of_lt (holdLoadFor_lt hT), rfl, rfl⟩, rfl, rfl⟩
  · rw [holdLoadFor_eq_ceilDiv, Nat.mul_comm]
    exact le_smul_ceilDiv hT
  · rw [holdLoadFor_eq_ceilDiv, ceilDiv_le_iff_le_mul hT, Nat.mul_comm]
    exact hn

end Sys2Proof.Machine
end

section
/-! PROOFS of family other: the timeline of an enabled detect sequence (R115, R116). -/

namespace Sys2Proof.Machine

/-! ### Runs counted by one domain's edges -/

/-- A predicate of the number of edges of a domain that each of them raises by one and every other allowed step keeps. -/
theorem runEvents_counts {P : ℕ → State → Prop} {allowed : Event → Prop} {d : Domain}
    (edge : ∀ {n : ℕ} {s t : State}, P n s → react (.tick d) s = .next t → P (n + 1) t)
    (other : ∀ {n : ℕ} {e : Event} {s t : State}, allowed e → e ≠ .tick d → P n s → react e s = .next t → P n t)
    (es : List Event) {n : ℕ} {s t : State} (hes : ∀ e ∈ es, allowed e) (hs : P n s) (h : runEvents es s = .next t) :
    P (n + es.countP (isTick d)) t := by
  induction es generalizing n s with
  | nil => cases h; exact hs
  | cons e es ih =>
    obtain ⟨u, hu, hrun⟩ := runEvents_cons h
    obtain ⟨he, hes'⟩ := List.forall_mem_cons.mp hes
    by_cases hd : e = .tick d
    · subst hd
      rw [List.countP_cons_of_pos (isTick_iff.mpr rfl), Nat.add_left_comm, Nat.add_comm]
      exact ih hes' (edge hs hu) hrun
    · rw [List.countP_cons_of_neg fun he => hd (isTick_iff.mp he)]
      exact ih hes' (other he hd hs hu) hrun

/-! ### The timeline -/

/-- The detect registers `n` edges after the start of an enabled sequence with hold load `H` and strobe load `P`: the hold
load runs out twice, in START and in SET_DETECT_H, then the strobe load in SET_STROBE_H; after the entry into WAIT_DONE_L
nothing is said. -/
inductive OnTimeline (H P n : ℕ) : DetRegs → Prop where
  | start (k : BitVec 4) (status : Bool) (hk : n + k.toNat = H) : OnTimeline H P n ⟨.start, k, false, false, status⟩
  | setDetectH (k : BitVec 4) (status : Bool) (hle : k.toNat ≤ H) (hk : n + k.toNat = 2 * H + 1) :
    OnTimeline H P n ⟨.setDetectH, k, true, false, status⟩
  | setStrobeH (k : BitVec 4) (status : Bool) (hle : k.toNat ≤ P) (hk : n + k.toNat = 2 * H + P + 2) :
    OnTimeline H P n ⟨.setStrobeH, k, true, true, status⟩
  | setStrobeL (status : Bool) (hn : n = 2 * H + P + 3) : OnTimeline H P n ⟨.setStrobeL, 0, true, false, status⟩
  | waitDoneL (status : Bool) (hn : n = 2 * H + P + 4) : OnTimeline H P n ⟨.waitDoneL, 0, true, false, status⟩
  | later (r : DetRegs) (hn : 2 * H + P + 4 < n) : OnTimeline H P n r

/-- A timer that is not at 0 has an edge less left after it counts. -/
theorem toNat_sub_one {k : BitVec 4} (hk : k ≠ 0) : (k - 1).toNat + 1 = k.toNat := by bv_omega

/-- One edge of the detect table is one edge of the timeline: in each timed state the timer counts, and at 0 the next state
is entered with its load. -/
theorem OnTimeline.detNext {p : Params} {n : ℕ} {r : DetRegs} (done con : Bool)
    (h : OnTimeline p.detHoldLoad.toNat p.detStrobeLoad.toNat n r) :
    OnTimeline p.detHoldLoad.toNat p.detStrobeLoad.toNat (n + 1) (detNext p false done con r) := by
  cases h with
  | start k status hk =>
    by_cases hz : k = 0
    · subst hz
      exact .setDetectH _ _ le_rfl (by simp at hk; omega)
    · have hcount := toNat_sub_one hz
      simp only [Machine.detNext, if_neg hz]
      exact .start _ _ (by omega)
  | setDetectH k status hle hk =>
    by_cases hz : k = 0
    · subst hz
      exact .setStrobeH _ _ le_rfl (by simp at hk; omega)
    · have hcount := toNat_sub_one hz
      simp only [Machine.detNext, if_neg hz]
      exact .setDetectH _ _ (by omega) (by omega)
  | setStrobeH k status hle hk =>
    by_cases hz : k = 0
    · subst hz
      exact .setStrobeL _ (by simp at hk; omega)
    · have hcount := toNat_sub_one hz
      simp only [Machine.detNext, if_neg hz]
      exact .setStrobeH _ _ (by omega) (by omega)
  | setStrobeL status hn => exact .waitDoneL _ (by omega)
  | waitDoneL status hn => exact .later _ (by omega)
  | later r hn => exact .later _ (by omega)

section Phases
variable {H P n : ℕ} {r : DetRegs} (h : OnTimeline H P n r)
include h

theorem OnTimeline.of_start (hn : n ≤ H) :
    r.dstate = .start ∧ r.dtimer.toNat = H - n ∧ r.pcieDetEn = false ∧ r.pcieCt = false := by
  cases h with
  | start k status hk => exact ⟨rfl, Nat.eq_sub_of_add_eq' hk, rfl, rfl⟩
  | _ => omega

theorem OnTimeline.of_setDetectH (hfrom : H + 1 ≤ n) (hto : n ≤ 2 * H + 1) :
    r.dstate = .setDetectH ∧ r.dtimer.toNat = 2 * H + 1 - n ∧ r.pcieDetEn = true ∧ r.pcieCt = false := by
  cases h with
  | setDetectH k status hle hk => exact ⟨rfl, Nat.eq_sub_of_add_eq' hk, rfl, rfl⟩
  | _ => omega

theorem OnTimeline.of_setStrobeH (hfrom : 2 * H + 2 ≤ n) (hto : n ≤ 2 * H + P + 2) :
    r.dstate = .setStrobeH ∧ r.dtimer.toNat = 2 * H + P + 2 - n ∧ r.pcieDetEn = true ∧ r.pcieCt = true := by
  cases h with
  | setStrobeH k status hle hk => exact ⟨rfl, Nat.eq_sub_of_add_eq' hk, rfl, rfl⟩
  | _ => omega

theorem OnTimeline.of_setStrobeL (hn : n = 2 * H + P + 3) :
    r.dstate = .setStrobeL ∧ r.dtimer = 0 ∧ r.pcieDetEn = true ∧ r.pcieCt = false := by
  cases h with
  | setStrobeL status hk => exact ⟨rfl, rfl, rfl, rfl⟩
  | _ => omega

theorem OnTimeline.of_waitDoneL (hn : n = 2 * H + P + 4) :
    r.dstate = .waitDoneL ∧ r.dtimer = 0 ∧ r.pcieDetEn = true ∧ r.pcieCt = false := by
  cases h with
  | waitDoneL status hk => exact ⟨rfl, rfl, rfl, rfl⟩
  | _ => omega

end Phases

/-- An enabled sequence with parameters `p`, `n` edges after its start. -/
structure SequencedFor (p : Params) (n : ℕ) (s : State) : Prop where
  params : s.params = p
  enabled : detRst s = false
  regs : OnTimeline p.detHoldLoad.toNat p.detStrobeLoad.toNat n s.det

/-- A `tx` edge is one edge more of the sequence. -/
theorem SequencedFor.react_tx {p : Params} {n : ℕ} {s t : State} (hs : SequencedFor p n s)
    (h : react (.tick .tx) s = .next t) : SequencedFor p (n + 1) t := by
  obtain ⟨rfl, henabled, hregs⟩ := hs
  refine ⟨(react_inp h).2.1, react_keepsDetecting rfl henabled h, ?_⟩
  rw [react_det h, if_pos rfl, henabled]
  exact hregs.detNext _ _

/-- Another step that leaves the sequence enabled is no edge of it. -/
theorem SequencedFor.react_of_ne {p : Params} {n : ℕ} {e : Event} {s t : State} (he : keepsDetecting e = true)
    (hne : e ≠ .tick .tx) (hs : SequencedFor p n s) (h : react e s = .next t) : SequencedFor p n t := by
  obtain ⟨hparams, henabled, hregs⟩ := hs
  exact ⟨(react_inp h).2.1.trans hparams, react_keepsDetecting he henabled h, by rwa [react_det h, if_neg hne]⟩

/-- Settles O50: the run's `tx` edges are the edges of the timeline. -/
theorem detectTimeline : Obligations.DetectTimeline := by
  rintro es s n H P hstart htimer hen hct hrstTx henable hes rfl rfl rfl
  obtain ⟨t, hrun⟩ := runEvents_answers es s
  have hregs : OnTimeline s.params.detHoldLoad.toNat s.params.detStrobeLoad.toNat 0 s.det := by
    rcases hr : s.det with ⟨d, k, en, ct, status⟩
    simp only [hr] at hstart htimer hen hct
    subst hstart hen hct
    exact .start k status (by rw [htimer, Nat.zero_add])
  have hlast := runEvents_counts (P := SequencedFor s.params) SequencedFor.react_tx SequencedFor.react_of_ne es
    (List.all_eq_true.mp hes) ⟨rfl, detRst_eq_false_iff.mpr ⟨hrstTx, henable⟩, hregs⟩ hrun
  rw [Nat.zero_add] at hlast
  obtain ⟨-, -, hline⟩ := hlast
  exact ⟨t, hrun, hline.of_start, hline.of_setDetectH, hline.of_setStrobeH, hline.of_setStrobeL,
    hline.of_waitDoneL⟩

end Sys2Proof.Machine
end

section
/-! PROOFS of family other: a search that finds the pattern at its n-th window edge (R133). -/

namespace Sys2Proof.Machine

/-! ### Levels and their change counts -/

theorem parity_add (m n : ℕ) : ((m + n) % 2 == 1) = ((m % 2 == 1) ^^ (n % 2 == 1)) := by
  rcases Nat.mod_two_eq_zero_or_one m with hm | hm <;> rcases Nat.mod_two_eq_zero_or_one n with hn | hn <;>
    simp [Nat.add_mod, hm, hn]

/-- A counted change leaves the level and the parity of its count at the same distance. -/
theorem xor_parity_of_counted (x y : Bool) (n : ℕ) :
    (y ^^ ((if x = y then n else n + 1) % 2 == 1)) = (x ^^ (n % 2 == 1)) := by
  by_cases hxy : x = y
  · rw [if_pos hxy, hxy]
  · rw [if_neg hxy, Bool.eq_not.mpr hxy, parity_add]
    cases y <;> simp

/-- Every step keeps the distance of each level from the parity of its change count (R37, R130). -/
theorem react_parities {e : Event} {s t : State} (h : react e s = .next t) :
    (t.align.slip ^^ (t.ghost.slipReqCount % 2 == 1)) = (s.align.slip ^^ (s.ghost.slipReqCount % 2 == 1)) ∧
    (t.align.invert ^^ (t.ghost.invertToggleCount % 2 == 1)) =
      (s.align.invert ^^ (s.ghost.invertToggleCount % 2 == 1)) := by
  rw [(react_align h).2]
  exact ⟨xor_parity_of_counted _ _ _, xor_parity_of_counted _ _ _⟩

/-- So does every run. -/
theorem runEvents_parities {es : List Event} {s t : State} (h : runEvents es s = .next t) :
    (t.align.slip ^^ (t.ghost.slipReqCount % 2 == 1)) = (s.align.slip ^^ (s.ghost.slipReqCount % 2 == 1)) ∧
    (t.align.invert ^^ (t.ghost.invertToggleCount % 2 == 1)) =
      (s.align.invert ^^ (s.ghost.invertToggleCount % 2 == 1)) := by
  induction es generalizing s with
  | nil => cases h; exact ⟨rfl, rfl⟩
  | cons e es ih =>
    obtain ⟨u, hu, hrun⟩ := runEvents_cons h
    obtain ⟨hslip, hinvert⟩ := react_parities hu
    obtain ⟨hslip', hinvert'⟩ := ih hrun
    exact ⟨hslip'.trans hslip, hinvert'.trans hinvert⟩

/-- A level at the same distance from the parity of a count that grew by `n` was toggled `n` times. -/
theorem eq_xor_of_parity {x y : Bool} {m n : ℕ} (h : (y ^^ ((m + n) % 2 == 1)) = (x ^^ (m % 2 == 1))) :
    y = (x ^^ (n % 2 == 1)) := by
  have hcancel : ∀ x y a b : Bool, (y ^^ (a ^^ b)) = (x ^^ a) → y = (x ^^ b) := by decide
  rw [parity_add] at h
  exact hcancel _ _ _ _ h

/-! ### Received edges -/

/-- A run of two lists is the run of the first and then of the second. -/
theorem runEvents_append (es fs : List Event) (s : State) :
    runEvents (es ++ fs) s = andThen (runEvents es s) (runEvents fs) := by
  induction es generalizing s with
  | nil => rfl
  | cons e es ih =>
    rw [List.cons_append, runEvents, runEvents, andThen_assoc]
    congr 1
    exact funext ih

theorem receive_succ (x : XcvrPorts) (w : ℕ → Slots RawWord) (n : ℕ) :
    receive x w (n + 1) = receive x w n ++ [.transceiver { x with rxRaw := w n }, .tick .rx] := by
  simp [receive, List.range_succ]

/-- The last received edge: the run before it, and the state in which the edge finds its raw words. -/
theorem receive_last {x : XcvrPorts} {w : ℕ → Slots RawWord} {n : ℕ} {s t : State}
    (h : runEvents (receive x w (n + 1)) s = .next t) :
    ∃ u v, runEvents (receive x w n) s = .next u ∧ react (.transceiver { x with rxRaw := w n }) u = .next v ∧
      react (.tick .rx) v = .next t := by
  rw [receive_succ, runEvents_append] at h
  obtain ⟨u, hu, hlast⟩ := andThen_eq_next h
  obtain ⟨v, hv, hedge⟩ := runEvents_cons hlast
  rw [runEvents_singleton] at hedge
  exact ⟨u, v, hu, hv, hedge⟩

/-- What the edge finds is the match predicate of the presented words. -/
theorem framingMatch_of_presented {x : XcvrPorts} {s t : State} (h : react (.transceiver x) s = .next t) :
    framingMatch t = isPattern s.params x.rxRaw := by
  obtain ⟨hinp, hparams, -⟩ := react_inp h
  rw [framingMatch_eq_isPattern, hinp, hparams]
  rfl

/-! ### The search up to its n-th window edge -/

section Search
variable {x : XcvrPorts} {w : ℕ → Slots RawWord} {s : State} (hsearch : s.align.astate = .search)
  (hwin : s.align.winCnt = 0) (herr : s.align.errTmr = 0) (henabled : AlignEnabled s)
include hsearch hwin herr henabled

/-- While no window edge holds the pattern the search goes on, whatever the other edges find. -/
theorem searchedFor_receive {m : ℕ} {t : State}
    (habsent : ∀ j < m, j % 2 ^ s.params.alignWinBits = 0 → isPattern s.params (w j) = false)
    (h : runEvents (receive x w m) s = .next t) : AlignEnabled t ∧ SearchedFor s.params s.ghost m t := by
  induction m generalizing t with
  | zero => cases h; exact ⟨henabled, searchedFor_zero hsearch hwin herr⟩
  | succ m ih =>
    obtain ⟨u, v, hrun, hpresent, hedge⟩ := receive_last h
    obtain ⟨henabledU, hu⟩ := ih (fun j hj => habsent j (by omega)) hrun
    have henabledV := react_keepsAligning rfl henabledU hpresent
    have hv : SearchedFor s.params s.ghost m v := hu.react_of_ne (by simp) hpresent
    refine ⟨react_keepsAligning rfl henabledV hedge, hv.react_rx henabledV (fun hwinV => ?_) hedge⟩
    rw [framingMatch_of_presented hpresent, hu.params]
    exact habsent m (by omega) (hv.window ▸ hwinV)

end Search

/-- Up to window edge `n` a search begins `n` windows, and no period of a longer error timer ends. -/
theorem windowsBegun_at_window_edge {W E n : ℕ} (hW : 0 < W) (hE : W * n < E) :
    (W * n + (W - 1)) / W = n ∧ W * n / E = 0 :=
  ⟨by rw [Nat.mul_add_div hW, Nat.div_eq_of_lt (by omega), Nat.add_zero], Nat.div_eq_of_lt hE⟩

/-- Settles O54: a search over the window edges without the pattern, then the edge that locks. -/
theorem searchLocksAfterNSlips : Obligations.SearchLocksAfterNSlips := by
  rintro s x w n W rfl - hshort hsearch hwin herr hrst henable habsent hpattern
  have hW := Nat.two_pow_pos s.params.alignWinBits
  obtain ⟨t, hrun⟩ := runEvents_answers (receive x w (2 ^ s.params.alignWinBits * n + 1)) s
  obtain ⟨u, v, hbefore, hpresent, hedge⟩ := receive_last hrun
  have habsent' : ∀ j < 2 ^ s.params.alignWinBits * n, j % 2 ^ s.params.alignWinBits = 0 →
      isPattern s.params (w j) = false := by
    intro j hj hj0
    obtain ⟨k, rfl⟩ := Nat.dvd_of_mod_eq_zero hj0
    exact habsent k (Nat.lt_of_mul_lt_mul_left hj)
  obtain ⟨henabledU, hu⟩ := searchedFor_receive hsearch hwin herr ⟨hrst, henable⟩ habsent' hbefore
  obtain ⟨-, hsearchV, hwinV, -, hslips, hinversions⟩ := hu.react_of_ne (by simp) hpresent
  obtain ⟨hbegun, hended⟩ := windowsBegun_at_window_edge hW hshort
  rw [hbegun] at hslips
  rw [hended, Nat.add_zero] at hinversions
  have hmatch : framingMatch v = true := by rw [framingMatch_of_presented hpresent, hu.params, hpattern]
  obtain ⟨halign, hghost⟩ := react_rx_enabled hedge (react_keepsAligning rfl henabledU hpresent)
  rw [alignNext_locked (.inr ⟨hsearchV, by rw [hwinV, Nat.mul_mod_right], hmatch⟩)] at halign
  have hcounts : t.ghost = v.ghost :=
    hghost.trans (ghostNext_of_levels_eq v.ghost (by rw [halign]) (by rw [halign]))
  rw [← hcounts] at hslips hinversions
  obtain ⟨hslip, hinvert⟩ := runEvents_parities hrun
  rw [hslips] at hslip
  rw [hinversions] at hinvert
  exact ⟨t, hrun, by rw [halign], hslips, eq_xor_of_parity hslip, by simpa using hinvert, hinversions⟩

end Sys2Proof.Machine
end

section
/-! PROOFS of family other: a placed selector word is what the coming step fetches (log entries 2 and 10). -/

namespace Sys2Proof.Machine

/-! ### The coming step of a state with a step put first -/

/-- The step put first comes next, and its state is the old one with what the step presents. -/
theorem pushed_comes_next (e : Event) (s : State) :
    nextEvent (pushEvent e s) = e ∧ fetchState (pushEvent e s) = s.setInp (present e s.inp) := by
  obtain ⟨hnext, hconsume⟩ := nextEvent_cons (s := pushEvent e s) rfl
  refine ⟨hnext, ?_⟩
  rw [fetchState, hnext, hconsume]
  rfl

/-- A component acts in the coming step and fetches there the operation `i`. -/
abbrev FetchesNext (p : Params) (f : Format) (i : Instr) (s : State) : Prop :=
  fetch f (fetchState s) = .ok i ∧ f ∈ actingFormats p (nextEvent s)

/-- What the step put first has to present, and to let act. -/
theorem fetchesNext_of_pushed {p : Params} {f : Format} {i : Instr} {e : Event} {s : State}
    (hfetch : fetch f (s.setInp (present e s.inp)) = .ok i) (hacts : f ∈ actingFormats p e) :
    FetchesNext p f i (pushEvent e s) := by
  obtain ⟨hnext, hstate⟩ := pushed_comes_next e s
  rw [FetchesNext, hnext, hstate]
  exact ⟨hfetch, hacts⟩

/-- A value placed for a bit of a word equals `c` exactly when the bit is 1. -/
theorem equalIff_beq {α : Type} [DecidableEq α] (b : Bool) {c other : α} (v : α) (h : other ≠ c) :
    (equalIff b c other v == c) = b := by
  cases b with
  | true => simp [equalIff]
  | false => by_cases hv : v = c <;> simp [equalIff, hv, h]

/-! ### The detect word -/

/-- A word is made of its fields. -/
theorem rxdetWord_of_fields (w : BitVec 6) :
    BitVec.ofBool (w.getLsbD 5) ++ w.extractLsb' 2 3 ++ BitVec.ofBool (w.getLsbD 1) ++ BitVec.ofBool (w.getLsbD 0) = w := by
  revert w
  decide

/-- A code names the state that has it; only 7 names none. -/
theorem dstateOfCode_cases (c : BitVec 3) :
    (∃ d, dstateOfCode c = some d ∧ dstateCode d = c) ∨ c = 7 := by
  revert c
  decide

/-- The rows of `RXDET_SEL` for the unused code: only RXDET_RESET's (R75 (a)). -/
theorem decode_rxdet_unused (sentinel : RawWord) (r z q : Bool) :
    decode sentinel ⟨.rxdet, (BitVec.ofBool r ++ (7 : BitVec 3) ++ BitVec.ofBool z ++ BitVec.ofBool q).toNat⟩ =
      if r then .ok .rxdetReset else .error .reservedDetectCode := by
  cases r <;> cases z <;> cases q <;> rfl

/-- A detect word that decodes is what the pick of its fields is, with any state for the unused code. -/
theorem decode_rxdet_fields {sentinel : RawWord} {w : BitVec 6} {i : Instr}
    (h : decode sentinel ⟨.rxdet, w.toNat⟩ = .ok i) (d : DState) :
    rxdetPick (w.getLsbD 5) ((dstateOfCode (w.extractLsb' 2 3)).getD d) (w.getLsbD 1) (w.getLsbD 0) = i := by
  obtain ⟨d', hd', hcode⟩ | hunused := dstateOfCode_cases (w.extractLsb' 2 3)
  · rw [← rxdetWord_of_fields w, ← hcode, decode_rxdet] at h
    rw [hd']
    exact Except.ok.inj h
  · rw [← rxdetWord_of_fields w, hunused, decode_rxdet_unused] at h
    cases hr : w.getLsbD 5 with
    | false => rw [hr] at h; cases h
    | true => rw [hr] at h; exact Except.ok.inj h

/-- The detect operation fetched, from the four fields of the word (R71). -/
theorem fetch_rxdet_of_fields {s : State} {r z q : Bool} {d : DState} (hr : detRst s = r) (hd : s.det.dstate = d)
    (hz : (s.det.dtimer == 0) = z) (hq : doneS s = q) : fetch .rxdet s = .ok (rxdetPick r d z q) := by
  rw [fetch_rxdet, hr, hd, hz, hq]

/-! ### The alignment word -/

/-- A word is made of its fields. -/
theorem alignWord_of_fields (w : BitVec 6) :
    BitVec.ofBool (w.getLsbD 5) ++ BitVec.ofBool (w.getLsbD 4) ++ BitVec.ofBool (w.getLsbD 3)
      ++ BitVec.ofBool (w.getLsbD 2) ++ BitVec.ofBool (w.getLsbD 1) ++ BitVec.ofBool (w.getLsbD 0) = w := by
  revert w
  decide

/-- An alignment word decodes to the pick of its fields. -/
theorem decode_align_fields (sentinel : RawWord) (w : BitVec 6) :
    decode sentinel ⟨.align, w.toNat⟩ =
      .ok (alignPick (w.getLsbD 5) (w.getLsbD 4) (if w.getLsbD 3 then .locked else .search) (w.getLsbD 2) (w.getLsbD 1)
        (w.getLsbD 0)) := by
  have hcode : BitVec.ofBool (w.getLsbD 3) = astateCode (if w.getLsbD 3 then .locked else .search) := by
    cases w.getLsbD 3 <;> rfl
  conv_lhs => rw [← alignWord_of_fields w, hcode]
  exact decode_align _ _ _ _ _ _ _

/-- The alignment operation fetched, from the six fields of the word (R73). -/
theorem fetch_align_of_fields {s : State} {x n w m o : Bool} {a : AState} (hx : s.inp.platform.rstRx = x)
    (hn : (!s.inp.consumer.alignEnable) = n) (ha : s.align.astate = a) (hw : (s.align.winCnt == 0) = w)
    (hm : framingMatch s = m) (ho : (s.align.errTmr == errTop s.params) = o) :
    fetch .align s = .ok (alignPick x n a w m o) := by
  rw [fetch_align, hx, hn, ha, hw, hm, ho]

/-- The raw words placed for bit `M` hold the pattern exactly when it is 1. -/
theorem isPattern_placeMatch (m : Bool) (p : Params) : isPattern p (placeMatch m p) = m := by
  have hsymbol (v : Sym) : symbolOf (v.setWidth 10) = v :=
    BitVec.eq_of_toNat_eq (by have := v.isLt; simp [symbolOf]; omega)
  cases m <;> simp [isPattern, placeMatch, hsymbol]

/-! ### Each format's placement -/

/-- The inputs placed for bit `R` give the reset condition that value (R100). -/
theorem detRst_of_placeDetRst {s : State} {r : Bool} {p : InPorts} (h : s.inp = placeDetRst r p) : detRst s = r := by
  rw [detRst, h]
  cases r <;> simp [placeDetRst]

/-- The state placed for a detect word fetches what the word decodes to at a `tx` edge. -/
theorem fetchesNext_placeRxdet {w : BitVec 6} {i : Instr} {s : State}
    (h : decode s.params.sentinel ⟨.rxdet, w.toNat⟩ = .ok i) : FetchesNext s.params .rxdet i (placeRxdet w s) := by
  refine fetchesNext_of_pushed ?_ (by simp [actingFormats, edgeFormats, controllerFormats])
  rw [← decode_rxdet_fields h s.det.dstate]
  exact fetch_rxdet_of_fields (detRst_of_placeDetRst rfl) rfl (equalIff_beq _ s.det.dtimer (by decide)) rfl

/-- The state placed for an alignment word fetches what the word decodes to at an `rx` edge. -/
theorem fetchesNext_placeAlign {w : BitVec 6} {i : Instr} {s : State}
    (h : decode s.params.sentinel ⟨.align, w.toNat⟩ = .ok i) : FetchesNext s.params .align i (placeAlign w s) := by
  refine fetchesNext_of_pushed ?_ (by simp [actingFormats, edgeFormats, controllerFormats])
  have htop : (if errTop s.params = 0 then 1 else 0) ≠ errTop s.params := by split <;> omega
  rw [decode_align_fields] at h
  rw [← h]
  exact fetch_align_of_fields rfl (Bool.not_not _) rfl (equalIff_beq _ s.align.winCnt Nat.one_ne_zero)
    (isPattern_placeMatch _ s.params) (equalIff_beq _ s.align.errTmr htop)

/-- A raw word placed in a slot is classified when the transceiver presents it. -/
theorem fetchesNext_placeSvc {slot : Slot} {raw : RawWord} {i : Instr} {s : State}
    (h : decode s.params.sentinel ⟨.svc slot, raw.toNat⟩ = .ok i) :
    FetchesNext s.params (.svc slot) i (placeSvc slot raw s) := by
  refine fetchesNext_of_pushed ?_ (by cases slot <;> simp [actingFormats, combinational])
  have hslot : slotGet (slotSet s.inp.xcvr.rxRaw slot raw) slot = raw := by rw [slotGet_slotSet, if_pos rfl]
  rw [decode_svc_toNat] at h
  rw [fetch_svc, decodeSvc_eq, ← h]
  simp only [setInp_params, setInp_inp, present, hslot]

/-- The source placed for a sample gives that sample (R23). -/
theorem sourceValue_setSource (inst : SyncInst) (v : Bool) (p : InPorts) :
    sourceValue { p with xcvr := setSource inst v p.xcvr } inst = v := by
  cases inst <;> rfl

/-- A sample placed at a source is shifted at an edge of the synchronizer's domain. -/
theorem fetchesNext_placeSync (inst : SyncInst) (v : Bool) (s : State) :
    FetchesNext s.params (.sync inst) (.syncShift inst v) (placeSync inst v s) := by
  refine fetchesNext_of_pushed ?_ ?_
  · rw [fetch_sync]
    exact congrArg (fun v => Except.ok (Instr.syncShift inst v)) (sourceValue_setSource inst v s.inp)
  · have hacts : inst ∈ edgeSyncs s.params (destDomain s.params inst) := mem_edgeSyncs.mpr rfl
    exact List.mem_append_left _ (List.mem_append_right _ (List.mem_map_of_mem hacts))

/-- Whatever its format, a placed word that decodes is fetched in the coming step. -/
theorem fetchesNext_placeSelector {sel : SelWord} {i : Instr} {s : State} (h : decode s.params.sentinel sel = .ok i) :
    FetchesNext s.params sel.format i (placeSelector sel s) := by
  obtain ⟨f, b⟩ := sel
  have hfits : b < 2 ^ formatWidth f := bits_lt_of_decode h
  cases f with
  | sync inst =>
    obtain rfl | rfl : b = 0 ∨ b = 1 := by simp only [formatWidth] at hfits; omega
    all_goals cases h; exact fetchesNext_placeSync inst _ s
  | svc slot => exact fetchesNext_placeSvc (by rwa [BitVec.toNat_ofNat, Nat.mod_eq_of_lt (show b < 2 ^ 10 from hfits)])
  | rxdet => exact fetchesNext_placeRxdet (by rwa [BitVec.toNat_ofNat, Nat.mod_eq_of_lt (show b < 2 ^ 6 from hfits)])
  | align => exact fetchesNext_placeAlign (by rwa [BitVec.toNat_ofNat, Nat.mod_eq_of_lt (show b < 2 ^ 6 from hfits)])
  | laneStatus =>
    obtain rfl : b = 0 := Nat.lt_one_iff.mp hfits
    cases h
    exact fetchesNext_of_pushed (fetch_laneStatus _) (by simp [actingFormats, combinational])
  | laneControl =>
    obtain rfl : b = 0 := Nat.lt_one_iff.mp hfits
    cases h
    exact fetchesNext_of_pushed (fetch_laneControl _) (by simp [actingFormats, combinational])

/-- Settles O9: the number stands for a selector word, which is read from the table and placed by its format. -/
theorem placedWordIsFetched : Obligations.PlacedWordIsFetched := by
  intro s nbits w sel i hsel hdecode
  have hplaced : s.withFetchWord nbits w = placeSelector sel s := by
    simp only [State.withFetchWord, placeTableWord, hsel]
  rw [hplaced]
  exact ⟨fun hsentinel => decodeTableWord_of_decode hsel (hsentinel ▸ hdecode), fetchesNext_placeSelector hdecode⟩

end Sys2Proof.Machine
end

section
/-! PROOFS of family other: the packed vectors of the script (R77). -/

namespace Sys2Proof.Machine

/-! ### Words of three and of four bits -/

theorem threeBits_fields (a b c : Bool) :
    (BitVec.ofBool a ++ BitVec.ofBool b ++ BitVec.ofBool c).getLsbD 2 = a ∧
    (BitVec.ofBool a ++ BitVec.ofBool b ++ BitVec.ofBool c).getLsbD 1 = b ∧
    (BitVec.ofBool a ++ BitVec.ofBool b ++ BitVec.ofBool c).getLsbD 0 = c := by
  cases a <;> cases b <;> cases c <;> decide

theorem threeBits_of_fields :
    ∀ v : BitVec 3, BitVec.ofBool (v.getLsbD 2) ++ BitVec.ofBool (v.getLsbD 1) ++ BitVec.ofBool (v.getLsbD 0) = v := by
  decide

theorem fourBits_fields (a b c d : Bool) :
    (BitVec.ofBool a ++ BitVec.ofBool b ++ BitVec.ofBool c ++ BitVec.ofBool d).getLsbD 3 = a ∧
    (BitVec.ofBool a ++ BitVec.ofBool b ++ BitVec.ofBool c ++ BitVec.ofBool d).getLsbD 2 = b ∧
    (BitVec.ofBool a ++ BitVec.ofBool b ++ BitVec.ofBool c ++ BitVec.ofBool d).getLsbD 1 = c ∧
    (BitVec.ofBool a ++ BitVec.ofBool b ++ BitVec.ofBool c ++ BitVec.ofBool d).getLsbD 0 = d := by
  cases a <;> cases b <;> cases c <;> cases d <;> decide

theorem fourBits_of_fields :
    ∀ v : BitVec 4, BitVec.ofBool (v.getLsbD 3) ++ BitVec.ofBool (v.getLsbD 2) ++ BitVec.ofBool (v.getLsbD 1)
      ++ BitVec.ofBool (v.getLsbD 0) = v := by
  decide

/-! ### Words of two bits above two raw words -/

theorem rawWords_fields (x n : Bool) (a b : RawWord) :
    (BitVec.ofBool x ++ BitVec.ofBool n ++ a ++ b).getLsbD 21 = x ∧
    (BitVec.ofBool x ++ BitVec.ofBool n ++ a ++ b).getLsbD 20 = n ∧
    (BitVec.ofBool x ++ BitVec.ofBool n ++ a ++ b).extractLsb' 10 10 = a ∧
    (BitVec.ofBool x ++ BitVec.ofBool n ++ a ++ b).extractLsb' 0 10 = b := by
  refine ⟨?_, ?_, ?_, BitVec.extractLsb'_append_eq_right⟩
  · simp only [BitVec.getLsbD_append]
    simp
  · simp only [BitVec.getLsbD_append]
    simp
  · rw [BitVec.extractLsb'_append_eq_of_le (le_refl 10)]
    exact BitVec.extractLsb'_append_eq_right

theorem rawWords_of_fields (v : BitVec 22) :
    BitVec.ofBool (v.getLsbD 21) ++ BitVec.ofBool (v.getLsbD 20) ++ v.extractLsb' 10 10 ++ v.extractLsb' 0 10 = v := by
  refine BitVec.eq_of_getLsbD_eq fun i hi => ?_
  simp only [BitVec.getLsbD_append, BitVec.getLsbD_extractLsb', BitVec.getLsbD_ofBool]
  by_cases hslot0 : i < 10
  · simp [hslot0]
  · by_cases hslot1 : i - 10 < 10
    · have hi' : 10 + (i - 10) = i := by omega
      simp [hslot0, hslot1, hi']
    · obtain rfl | rfl : i = 20 ∨ i = 21 := by omega
      · simp
      · simp

/-! ### The six vectors -/

/-- The fields of `TXIN`. -/
theorem txin_fields (p : InPorts) :
    (txin p).getLsbD 3 = p.platform.rstTx ∧ (txin p).getLsbD 2 = p.consumer.detEnable ∧
    (txin p).getLsbD 1 = p.xcvr.detectDone ∧ (txin p).getLsbD 0 = p.xcvr.detectResult :=
  fourBits_fields _ _ _ _

/-- The fields of `RXIN`. -/
theorem rxin_fields (p : InPorts) :
    (rxin p).getLsbD 21 = p.platform.rstRx ∧ (rxin p).getLsbD 20 = p.consumer.alignEnable ∧
    (rxin p).extractLsb' 10 10 = p.xcvr.rxRaw.slot1 ∧ (rxin p).extractLsb' 0 10 = p.xcvr.rxRaw.slot0 :=
  rawWords_fields _ _ _ _

/-- The fields of `CSIN`. -/
theorem csin_fields (p : InPorts) :
    (csin p).getLsbD 2 = p.xcvr.lossOfSignal ∧ (csin p).getLsbD 1 = p.xcvr.lossOfLock ∧
    (csin p).getLsbD 0 = p.xcvr.linkSyncStatus :=
  threeBits_fields _ _ _

/-- Settles O7: every vector by its fields, and a vector that is set by the words made of them. -/
theorem packedVectorLayouts : Obligations.PackedVectorLayouts := by
  refine ⟨fun v p => ⟨fourBits_of_fields v, rfl, rfl, rfl⟩, fun v p => ⟨rawWords_of_fields v, rfl, rfl, rfl⟩,
    fun v p => ⟨threeBits_of_fields v, rfl, rfl, rfl⟩, fun p => ?_, fun o => ?_⟩
  · obtain ⟨hrstTx, hdetEnable, hdone, hresult⟩ := txin_fields p
    obtain ⟨hrstRx, halignEnable, hslot1, hslot0⟩ := rxin_fields p
    exact ⟨hrstTx, hdetEnable, hdone, hresult, hrstRx, halignEnable, hslot1, hslot0, csin_fields p⟩
  · obtain ⟨hen, hct, hstatus, hvalid⟩ := fourBits_fields o.pcieDetEn o.pcieCt o.detStatus o.detValid
    obtain ⟨hslip, hinvert, hlocked⟩ := threeBits_fields o.slip o.invert o.alignLocked
    exact ⟨hen, hct, hstatus, hvalid, hslip, hinvert, hlocked, threeBits_fields o.present o.locked o.aligned⟩

end Sys2Proof.Machine
end

section
/-! PROOFS of family other: the lines and the pseudo-operations of the script (R78, R79). -/

namespace Sys2Proof.Machine

/-! ### Running a step line -/

/-- The ports a line sets are presented one agent after another, and the outputs settle. -/
theorem runEvents_presentAll (p : InPorts) (s : State) :
    runEvents (presentAll p) s = .next ((s.setInp p).setOut (portValues (s.setInp p))) := by
  simp only [presentAll, runEvents, react_drive_eq (e := .platform _) rfl, react_drive_eq (e := .consumer _) rfl,
    react_drive_eq (e := .transceiver _) rfl, andThen_next]
  rfl

/-- The state in which a step line's edges begin: its assignments presented, its free values drawn. -/
def lineStart (as : List Assign) (s : State) : State :=
  let u := (s.setDraws (assignAll as (s.inp, s.draws)).2).setInp (assignAll as (s.inp, s.draws)).1
  u.setOut (portValues u)

@[simp] theorem lineStart_inp (as : List Assign) (s : State) :
    (lineStart as s).inp = (assignAll as (s.inp, s.draws)).1 := rfl
@[simp] theorem lineStart_params (as : List Assign) (s : State) : (lineStart as s).params = s.params := rfl
@[simp] theorem lineStart_sync (as : List Assign) (s : State) : (lineStart as s).sync = s.sync := rfl
@[simp] theorem lineStart_det (as : List Assign) (s : State) : (lineStart as s).det = s.det := rfl
@[simp] theorem lineStart_align (as : List Assign) (s : State) : (lineStart as s).align = s.align := rfl
@[simp] theorem lineStart_ghost (as : List Assign) (s : State) : (lineStart as s).ghost = s.ghost := rfl

/-- A step line runs its edges from there. -/
theorem runLine_step {d : Domain} {as : List Assign} {count : ℕ} {s t : State}
    (h : runEvents (List.replicate count (.tick d)) (lineStart as s) = .next t) :
    runLine (.step d as count) s = some t := by
  have hevents : runEvents (lineEvents d (assignAll as (s.inp, s.draws)).1 count)
      (s.setDraws (assignAll as (s.inp, s.draws)).2) = .next t := by
    rw [lineEvents, runEvents_append, runEvents_presentAll, andThen_next]
    exact h
  simp only [runLine, hevents]

/-- A script's first line and the rest of it. -/
theorem runScript_cons {l : Line} {ls : List Line} {s t : State} (h : runLine l s = some t) :
    runScript (l :: ls) s = runScript ls t := by
  rw [runScript, h, Option.bind_some]

/-- A line with one edge, then a line that only sets ports. -/
theorem runScript_edge_then_set {d : Domain} {as as' : List Assign} {s t : State}
    (h : react (.tick d) (lineStart as s) = .next t) :
    runScript [.step d as 1, .step d as' 0] s = some (lineStart as' t) := by
  have hedge : runLine (.step d as 1) s = some t := runLine_step ((runEvents_singleton _ _).trans h)
  have hset : runLine (.step d as' 0) t = some (lineStart as' t) := runLine_step rfl
  rw [runScript_cons hedge, runScript_cons hset, runScript]

/-! ### The reset scripts -/

/-- `reset_tx` leaves the detect registers but `det_status` at their reset values. -/
theorem runScript_resetTx (s : State) :
    ∃ t, runScript resetTx s = some t ∧
      t.det = { dstate := .start, dtimer := s.params.detHoldLoad, pcieDetEn := false, pcieCt := false,
                detStatus := s.det.detStatus } ∧
      t.inp = { s.inp with platform := { s.inp.platform with rstTx := false } } ∧
      t.align = s.align ∧ t.ghost = s.ghost := by
  obtain ⟨t, hedge⟩ := react_answers (.tick .tx) (lineStart [.port .rstTx (.num 1)] s)
  have hrst : detRst (lineStart [.port .rstTx (.num 1)] s) = true := detRst_eq_true_iff.mpr (.inl rfl)
  have hdet := react_det hedge
  rw [if_pos rfl, hrst, detNext_reset] at hdet
  obtain ⟨halign, hghost⟩ := react_rxView_of_ne hedge (by decide)
  refine ⟨_, runScript_edge_then_set hedge, hdet, ?_, halign, hghost⟩
  rw [lineStart_inp, (react_tick_inp hedge).1]
  rfl

/-- `reset_rx` leaves the alignment registers at their reset values. -/
theorem runScript_resetRx (s : State) :
    ∃ t, runScript resetRx s = some t ∧
      t.align = { astate := .search, winCnt := 0, errTmr := 0, slip := false, invert := false } ∧
      t.inp = { s.inp with platform := { s.inp.platform with rstRx := false } } ∧ t.det = s.det := by
  obtain ⟨t, hedge⟩ := react_answers (.tick .rx) (lineStart [.port .rstRx (.num 1)] s)
  have hrst : (lineStart [.port .rstRx (.num 1)] s).inp.platform.rstRx = true := rfl
  have halign := (react_align hedge).1
  rw [if_pos rfl, hrst, alignNext_reset] at halign
  have hdet : t.det = s.det := by rw [react_det hedge, if_neg (by decide), lineStart_det]
  refine ⟨_, runScript_edge_then_set hedge, halign, ?_, hdet⟩
  rw [lineStart_inp, (react_tick_inp hedge).1]
  rfl

/-! ### The flush scripts -/

/-- Two edges of a domain without `SYNC_META` leave the source's value in both stages of each of its synchronizers. -/
theorem runScript_flush {s : State} (hplain : s.params.syncMeta = false) (d : Domain) :
    ∃ t, runScript [.step d [] 2] s = some t ∧ t.inp = s.inp ∧ ∀ inst, destDomain s.params inst = d →
      (syncGet t.sync inst).q1 = sourceValue s.inp inst ∧ (syncGet t.sync inst).q2 = sourceValue s.inp inst := by
  obtain ⟨t₁, h₁⟩ := react_answers (.tick d) (lineStart [] s)
  obtain ⟨t₂, h₂⟩ := react_answers (.tick d) t₁
  have hrun : runEvents (List.replicate 2 (.tick d)) (lineStart [] s) = .next t₂ := by
    rw [List.replicate_succ, runEvents, h₁, andThen_next]
    exact (runEvents_singleton _ _).trans h₂
  refine ⟨t₂, (runScript_cons (runLine_step hrun)).trans rfl,
    (react_tick_inp h₂).1.trans (react_tick_inp h₁).1, fun inst hd => ?_⟩
  obtain ⟨u₁, u₂, hu₁, hu₂, -, hq2, hq1⟩ := two_edges_show_source (s := lineStart [] s) hd (.inl hplain)
  cases h₁.symm.trans hu₁
  cases h₂.symm.trans hu₂
  exact ⟨hq1, hq2⟩

/-! ### The encoding of a step line -/

/-- The ports of a domain's input vector taken from `q`, every other one from `p`. -/
def copyPorts (d : Domain) (q p : InPorts) : InPorts :=
  match d with
  | .tx =>
    { xcvr := { p.xcvr with detectDone := q.xcvr.detectDone, detectResult := q.xcvr.detectResult }
      consumer := { p.consumer with detEnable := q.consumer.detEnable }
      platform := { p.platform with rstTx := q.platform.rstTx } }
  | .rx =>
    { xcvr := { p.xcvr with rxRaw := q.xcvr.rxRaw }
      consumer := { p.consumer with alignEnable := q.consumer.alignEnable }
      platform := { p.platform with rstRx := q.platform.rstRx } }
  | .cons =>
    { p with
      xcvr :=
        { p.xcvr with
          lossOfSignal := q.xcvr.lossOfSignal, lossOfLock := q.xcvr.lossOfLock, linkSyncStatus := q.xcvr.linkSyncStatus } }
  | .ref => p

/-- Reading back a domain's vector copies the ports that it packs. -/
theorem vectorPorts_portVector (d : Domain) (q p : InPorts) : vectorPorts d (portVector d q) p = copyPorts d q p := by
  cases d with
  | ref => rfl
  | tx =>
    obtain ⟨hrst, henable, hdone, hresult⟩ := txin_fields q
    simp only [vectorPorts, portVector, BitVec.ofNat_toNat, BitVec.setWidth_eq, setTxin, hrst, henable, hdone, hresult,
      copyPorts]
  | rx =>
    obtain ⟨hrst, henable, hslot1, hslot0⟩ := rxin_fields q
    simp only [vectorPorts, portVector, BitVec.ofNat_toNat, BitVec.setWidth_eq, setRxin, hrst, henable, hslot1, hslot0,
      copyPorts]
  | cons =>
    obtain ⟨hlos, hlol, hlss⟩ := csin_fields q
    simp only [vectorPorts, portVector, BitVec.ofNat_toNat, BitVec.setWidth_eq, setCsin, hlos, hlol, hlss, copyPorts]

/-- `q` presents what `p` does but at the ports of domain `d`: copying those, and keeping `tx_symbol`, is all of `q`. -/
abbrev DiffersIn (d : Domain) (p q : InPorts) : Prop :=
  copyPorts d q p = { q with consumer := { q.consumer with txSymbol := p.consumer.txSymbol } }

/-- Setting a port of the domain keeps the other ports. -/
theorem DiffersIn.setPort {port : Port} {p q : InPorts} (h : DiffersIn port.domain p q) (n : ℕ) :
    DiffersIn port.domain p (setPort port n q) := by
  have hset := congrArg (Machine.setPort port n) h
  cases port with
  | txSymbol i => exact h
  | _ => exact hset

/-- So does an assignment to ports of the domain. -/
theorem DiffersIn.assign {d : Domain} {p : InPorts} {x : InPorts × ℕ} (h : DiffersIn d p x.1) {a : Assign}
    (ha : a.wf d = true) : DiffersIn d p (assign a x).1 := by
  cases a with
  | port port v =>
    obtain rfl : port.domain = d := beq_iff_eq.mp ha
    exact h.setPort _
  | rxRaw v0 v1 =>
    obtain rfl : d = .rx := beq_iff_eq.mp ha
    exact (h.setPort (port := .rxRaw .slot0) _).setPort (port := .rxRaw .slot1) _

/-- So do the assignments of a line. -/
theorem DiffersIn.assignAll {d : Domain} {p : InPorts} {as : List Assign} (has : ∀ a ∈ as, a.wf d = true)
    {x : InPorts × ℕ} (h : DiffersIn d p x.1) : DiffersIn d p (assignAll as x).1 := by
  induction as generalizing x with
  | nil => exact h
  | cons a as ih =>
    obtain ⟨ha, has⟩ := List.forall_mem_cons.mp has
    exact ih has (h.assign ha)

/-- Settles O59: the four scripts, and that reading back a line's vector copies all that the line sets but `tx_symbol`. -/
theorem scriptPseudoOperations : Obligations.ScriptPseudoOperations := by
  refine ⟨runScript_resetTx, runScript_resetRx, fun s hplain => runScript_flush hplain .tx,
    fun s hplain => runScript_flush hplain .cons, fun d as count draws p hwf => ⟨rfl, rfl, ?_⟩⟩
  have has : ∀ a ∈ as, a.wf d = true := List.all_eq_true.mp (Bool.and_eq_true_iff.mp hwf).2
  have hstart : DiffersIn d p p := by cases d <;> rfl
  exact (vectorPorts_portVector d _ p).trans (hstart.assignAll (x := (p, draws)) has)

end Sys2Proof.Machine
end
